-- ==== Sys2Proof/Word.lean ====
section
/-! DEFINITION. The word types of the UT1608 and their plainest arithmetic. -/

namespace Sys2Proof

/-- One byte of a record (R202, R204). -/
abbrev Byte := BitVec 8

/-- A 32-bit register of the window (R199). -/
abbrev Word := BitVec 32

/-- A device time: a count of ticks modulo 2^48 (R2). -/
abbrev Time := BitVec 48

/-- The host's 16-bit name for a work; 0 means none (R131). -/
abbrev Tag := BitVec 16

/-- An address in host memory. -/
abbrev HostAddr := BitVec 64

/-- How many ticks `t` lies ahead of `now`, modulo 2^48 (R4). -/
abbrev Time.ahead (t now : Time) : Nat := (t - now).toNat

end Sys2Proof
end

