-- ==== Sys2Proof/Syntax.lean ====
section
/-! DEFINITION. The commands the block takes: one constructor of `Instr` for each row of
spec/opcode_table.json, with the fields of the submission records as the host writes them. -/

namespace Sys2Proof

/-- The levels of an input pin, and of an output line at rest (R21, R74). -/
inductive Level where
  | low
  | high
deriving DecidableEq, Repr

/-- The header of a submission record, bytes 1 to 7 (R202). -/
structure Header where
  flags    : BitVec 8
  tag      : Tag
  ring     : BitVec 8
  line     : BitVec 8
  reserved : BitVec 16
deriving DecidableEq, Repr

/-- The body of a DEFINE_RING (R203). -/
structure DefineRingBody where
  number    : BitVec 8
  level     : BitVec 8
  threshold : BitVec 8
  size      : BitVec 32
  base      : BitVec 64
  holdoff   : BitVec 32
deriving DecidableEq, Repr

/-- The body of a SET_OUTPUT (R203). -/
structure SetOutputBody where
  drive     : BitVec 8
  idle      : BitVec 8
  fault     : BitVec 8
  highWidth : BitVec 16
  period    : BitVec 16
deriving DecidableEq, Repr

/-- The body of a SET_INPUT (R203). -/
structure SetInputBody where
  enabled      : BitVec 8
  filterLength : BitVec 16
deriving DecidableEq, Repr

/-- The body of a START_TRAIN (R203). -/
structure StartTrainBody where
  startKind    : BitVec 8
  segmentCount : BitVec 8
  endPolicy    : BitVec 8
  edgeNumber   : BitVec 8
  repeatCount  : BitVec 16
  reference    : Tag
  time         : BitVec 64
  segments     : Vector (BitVec 32) 8
deriving DecidableEq, Repr

/-- The body of an ARM_CAPTURE (R203). -/
structure ArmCaptureBody where
  edgeSelect : BitVec 8
  reportMode : BitVec 8
  reservedA  : BitVec 16
  edgeLimit  : BitVec 16
  reservedB  : BitVec 16
  openTime   : BitVec 64
  closeTime  : BitVec 64
deriving DecidableEq, Repr

/-- A submission record with its fields taken from their positions (R202, R203). A record whose kind
code is none of the ten is kept as `unknown`, for it is still answered (R127). -/
inductive Submission where
  | nop (h : Header)
  | defineRing (h : Header) (b : DefineRingBody)
  | setOutput (h : Header) (b : SetOutputBody)
  | setInput (h : Header) (b : SetInputBody)
  | startTrain (h : Header) (b : StartTrainBody)
  | armCapture (h : Header) (b : ArmCaptureBody)
  | cancel (h : Header)
  | fence (h : Header) (timeout : BitVec 64)
  | readTime (h : Header)
  | adjustTime (h : Header) (value : BitVec 64)
  | unknown (kind : BitVec 8) (h : Header)
deriving DecidableEq, Repr

/-- Which read an answer on the host link belongs to. The part tells the answer of a discarded read
from that of its one outstanding read by the link's request identification (R120). -/
inductive ReadId where
  | outstanding
  | discarded
deriving DecidableEq, Repr

/-- The error answers of a submission read (R121). -/
inductive ReadError where
  | unsupported
  | completerAbort
  | poisoned
deriving DecidableEq, Repr

/-- A register write as the link delivers it: narrower than 32 bits, of 32 bits, or of 64 bits, which
is two 32-bit writes, the lower offset first (R199). -/
inductive RegisterWrite where
  | narrow
  | word (v : Word)
  | pair (v : BitVec 64)
deriving DecidableEq, Repr

/-- A register read as the link delivers it: some bytes of a register, a register, or 64 bits, which is
two 32-bit reads, the lower offset first (R199). -/
inductive RegisterRead where
  | bytes (first last : Fin 4)
  | word
  | pair
deriving DecidableEq, Repr

/-- The register reads that read TIME_LO (R199, R200): some of its bytes, the register alone, with
TIME_HI as a 64-bit read at 0x0C, or after STAT as a 64-bit read at 0x08. -/
inductive TimeRead where
  | bytes (first last : Fin 4)
  | word
  | withTimeHi
  | withStat
deriving DecidableEq, Repr

/-- The host's setting of the message-signalled interrupts in the link's configuration space
(R180, R197): how many vectors are enabled, and the address and data of each. -/
structure MsiSetup where
  enabled : Bool
  vectors : Nat
  address : Vector (BitVec 64) 4
  data    : Vector (BitVec 32) 4
deriving DecidableEq, Repr

/-- The commands of the block: one constructor a row of spec/opcode_table.json. -/
inductive Instr where
  | nop (h : Header)
  | defineRing (h : Header) (b : DefineRingBody)
  | setOutput (h : Header) (b : SetOutputBody)
  | setInput (h : Header) (b : SetInputBody)
  | startTrain (h : Header) (b : StartTrainBody)
  | armCapture (h : Header) (b : ArmCaptureBody)
  | cancel (h : Header)
  | fence (h : Header) (timeout : BitVec 64)
  | readTime (h : Header)
  | adjustTime (h : Header) (value : BitVec 64)
  | enable
  | quiesce
  | softReset (enableBit : Bool)
  | sqtailWrite (value : Word)
  | crheadWrite (ring : Fin 4) (value : Word)
  | configurationRegisterWrite (offset : BitVec 8) (write : RegisterWrite)
  | timeLoRead (access : TimeRead)
  | powerOnReset
  | hostLinkReset
  | refclkStop
  | refclkResume
  | busMasteringEnable (msi : Option MsiSetup)
  | vectorUnmask (vector : Fin 4)
  | submissionReadReturn (of : ReadId) (data : Vector Byte 64)
  | submissionReadError (of : ReadId) (error : ReadError)
  | submissionReadTimeout
  | inputLevelChange (line : Fin 8) (level : Level)
  | edgeConfirmed (line : Fin 8)
  | startDelivered (slot : Fin 32)
  | boundaryDelivered (slot : Fin 32)
  | openDelivered (slot : Fin 16)
  | closeDelivered (slot : Fin 16)
  | timeoutDelivered
  | holdoffExpiry (ring : Fin 4)
  | quiesceLimitExpiry
  | postedWriteChoice
  | carrierToggle (line : Fin 16)
  | busMasteringDisable
  | vectorMask (vector : Fin 4)
  | resetRelease
deriving DecidableEq, Repr

end Sys2Proof
end

