-- ==== Sys2Proof/Decode.lean ====
section
/-! DEFINITION. The 64-byte submission record: its fields taken from their positions (R202, R203), and
the record written from its fields. The opcode table gives no row any bits, so a table word spells no
command (log 20). -/

namespace Sys2Proof

/-- Two bytes, the lower-addressed one least significant (little-endian, R199). -/
def le16 (b0 b1 : Byte) : BitVec 16 := b1 ++ b0

/-- Four bytes, little-endian. -/
def le32 (b0 b1 b2 b3 : Byte) : BitVec 32 := b3 ++ (b2 ++ (b1 ++ b0))

/-- Eight bytes, little-endian. -/
def le64 (b0 b1 b2 b3 b4 b5 b6 b7 : Byte) : BitVec 64 :=
  b7 ++ (b6 ++ (b5 ++ (b4 ++ (b3 ++ (b2 ++ (b1 ++ b0))))))

/-- Byte `i` of a field: its bits 8i+7 to 8i. -/
def byteOf {w : Nat} (x : BitVec w) (i : Nat) : Byte := x.extractLsb' (8 * i) 8

/-- The header's fields, bytes 1 to 7 (R202). -/
def decodeHeader (r : Vector Byte 64) : Header :=
  { flags := r[1], tag := le16 r[2] r[3], ring := r[4], line := r[5], reserved := le16 r[6] r[7] }

/-- DEFINE_RING's body (R203). -/
def decodeDefineRing (r : Vector Byte 64) : DefineRingBody :=
  { number := r[8], level := r[9], threshold := r[10]
    size := le32 r[12] r[13] r[14] r[15]
    base := le64 r[16] r[17] r[18] r[19] r[20] r[21] r[22] r[23]
    holdoff := le32 r[24] r[25] r[26] r[27] }

/-- SET_OUTPUT's body (R203). -/
def decodeSetOutput (r : Vector Byte 64) : SetOutputBody :=
  { drive := r[8], idle := r[9], fault := r[10], highWidth := le16 r[12] r[13], period := le16 r[14] r[15] }

/-- SET_INPUT's body (R203). -/
def decodeSetInput (r : Vector Byte 64) : SetInputBody :=
  { enabled := r[8], filterLength := le16 r[10] r[11] }

/-- START_TRAIN's body; segment i stands at byte 24 + 4i (R203). -/
def decodeStartTrain (r : Vector Byte 64) : StartTrainBody :=
  { startKind := r[8], segmentCount := r[9], endPolicy := r[10], edgeNumber := r[11]
    repeatCount := le16 r[12] r[13], reference := le16 r[14] r[15]
    time := le64 r[16] r[17] r[18] r[19] r[20] r[21] r[22] r[23]
    segments := #v[le32 r[24] r[25] r[26] r[27], le32 r[28] r[29] r[30] r[31],
      le32 r[32] r[33] r[34] r[35], le32 r[36] r[37] r[38] r[39],
      le32 r[40] r[41] r[42] r[43], le32 r[44] r[45] r[46] r[47],
      le32 r[48] r[49] r[50] r[51], le32 r[52] r[53] r[54] r[55]] }

/-- ARM_CAPTURE's body (R203). -/
def decodeArmCapture (r : Vector Byte 64) : ArmCaptureBody :=
  { edgeSelect := r[8], reportMode := r[9], reservedA := le16 r[10] r[11]
    edgeLimit := le16 r[12] r[13], reservedB := le16 r[14] r[15]
    openTime := le64 r[16] r[17] r[18] r[19] r[20] r[21] r[22] r[23]
    closeTime := le64 r[24] r[25] r[26] r[27] r[28] r[29] r[30] r[31] }

/-- The eight bytes of the time field of FENCE and ADJUST_TIME (R203). -/
def decodeTimeField (r : Vector Byte 64) : BitVec 64 :=
  le64 r[16] r[17] r[18] r[19] r[20] r[21] r[22] r[23]

/-- The record of a kind code (R202). Total: any other code is kept as `unknown`. -/
def decodeSubmission (r : Vector Byte 64) : Submission :=
  let h := decodeHeader r
  if r[0] = 0x01#8 then .nop h
  else if r[0] = 0x02#8 then .defineRing h (decodeDefineRing r)
  else if r[0] = 0x03#8 then .setOutput h (decodeSetOutput r)
  else if r[0] = 0x04#8 then .setInput h (decodeSetInput r)
  else if r[0] = 0x05#8 then .startTrain h (decodeStartTrain r)
  else if r[0] = 0x06#8 then .armCapture h (decodeArmCapture r)
  else if r[0] = 0x07#8 then .cancel h
  else if r[0] = 0x08#8 then .fence h (decodeTimeField r)
  else if r[0] = 0x09#8 then .readTime h
  else if r[0] = 0x0A#8 then .adjustTime h (decodeTimeField r)
  else .unknown r[0] h

/-- The header of a record. -/
def Submission.header : Submission → Header
  | .nop h | .defineRing h _ | .setOutput h _ | .setInput h _ | .startTrain h _ | .armCapture h _
  | .cancel h | .fence h _ | .readTime h | .adjustTime h _ | .unknown _ h => h

/-- The kind code of a record (R202). -/
def Submission.kind : Submission → BitVec 8
  | .nop _ => 0x01#8
  | .defineRing _ _ => 0x02#8
  | .setOutput _ _ => 0x03#8
  | .setInput _ _ => 0x04#8
  | .startTrain _ _ => 0x05#8
  | .armCapture _ _ => 0x06#8
  | .cancel _ => 0x07#8
  | .fence _ _ => 0x08#8
  | .readTime _ => 0x09#8
  | .adjustTime _ _ => 0x0A#8
  | .unknown k _ => k

/-- The `n` bytes of a field, the least significant first. -/
def bytesOf {w : Nat} (x : BitVec w) (n : Nat) : List Byte := (List.range n).map (byteOf x)

/-- The body of a record, from byte 8 on, as far as its kind lists bytes (R203). -/
def Submission.bodyBytes : Submission → List Byte
  | .nop _ | .cancel _ | .readTime _ | .unknown _ _ => []
  | .defineRing _ b =>
    [b.number, b.level, b.threshold, 0] ++ bytesOf b.size 4 ++ bytesOf b.base 8 ++ bytesOf b.holdoff 4
  | .setOutput _ b => [b.drive, b.idle, b.fault, 0] ++ bytesOf b.highWidth 2 ++ bytesOf b.period 2
  | .setInput _ b => [b.enabled, 0] ++ bytesOf b.filterLength 2
  | .startTrain _ b =>
    [b.startKind, b.segmentCount, b.endPolicy, b.edgeNumber] ++ bytesOf b.repeatCount 2
      ++ bytesOf b.reference 2 ++ bytesOf b.time 8
      ++ bytesOf b.segments[0] 4 ++ bytesOf b.segments[1] 4 ++ bytesOf b.segments[2] 4
      ++ bytesOf b.segments[3] 4 ++ bytesOf b.segments[4] 4 ++ bytesOf b.segments[5] 4
      ++ bytesOf b.segments[6] 4 ++ bytesOf b.segments[7] 4
  | .armCapture _ b =>
    [b.edgeSelect, b.reportMode] ++ bytesOf b.reservedA 2 ++ bytesOf b.edgeLimit 2
      ++ bytesOf b.reservedB 2 ++ bytesOf b.openTime 8 ++ bytesOf b.closeTime 8
  | .fence _ t => List.replicate 8 0 ++ bytesOf t 8
  | .adjustTime _ v => List.replicate 8 0 ++ bytesOf v 8

/-- The header and body of a record as the host writes them; the bytes after these are zero. -/
def Submission.bytes (c : Submission) : List Byte :=
  [c.kind, c.header.flags] ++ bytesOf c.header.tag 2 ++ [c.header.ring, c.header.line]
    ++ bytesOf c.header.reserved 2 ++ c.bodyBytes

/-- The 64 bytes of a record (R202, R203), unlisted bytes zero. -/
def encodeSubmission (c : Submission) : Vector Byte 64 :=
  Vector.ofFn fun i => c.bytes.getD i.val 0

/-- The command that a table word spells: none, since the table gives no row any bits (log 20). -/
def decodeTableWord (_nbits _w : Nat) : Option Instr := none

end Sys2Proof
end

