-- ==== Sys2Proof/Config.lean ====
section
/-! DEFINITION. The part's fixed quantities, and the one value the spec leaves free. -/

namespace Sys2Proof.Config

/-- The farthest a time can lie ahead and still be in the future: 2^47 - 1 ticks (R4). -/
def horizon : Nat := 2 ^ 47 - 1

/-- The admission lead of train start times, in ticks (R6). -/
def admissionLead : Nat := 40

/-- Places in a ring's account: staged records plus owed finals (R147). -/
def accountPlaces : Nat := 64

/-- Ticks after its issue at which an unanswered submission read is an error (R121). -/
def readLimit : Nat := 6250000

/-- Ticks from the quiesce tick to the expiry of the quiesce limit (R189). -/
def quiesceLimit : Nat := 125000

/-- Ticks in one unit of holdoff (R171). -/
def holdoffUnit : Nat := 256

/-- The ceiling of the repetitions of an endless train and of the edges of a capture (R44, R87). -/
def countCeiling : Nat := 2 ^ 32 - 1

/-- The ceiling of a capture's dropped count and of a ring's unnotified count (R88, R172). -/
def shortCeiling : Nat := 65535

/-- The value of the ID register (R199). -/
def identity : BitVec 32 := 0x01511608#32

/-- DESIGN CHOICE (log 3), safe. Which of several own events of the part that fall at one tick is
taken next: the spec gives blocks no order among themselves (R15, R79), so nothing constrains it.
It is asked with a counter, and so answers afresh each time. -/
opaque eventOrder : Nat → Nat

end Sys2Proof.Config
end

