-- ==== Sys2Proof/Machine/State.lean ====
section
/-! DEFINITION. The state of the UT1608 as plain data, field by field as the spec's tables list it, and
the state after reset. -/

namespace Sys2Proof.Machine

/-- Why the block would stop. No command of the UT1608 stops it: what goes wrong is a status, a FAULTED
ring or the HALTED state (R144), so there is no such reason. -/
inductive Fault
deriving DecidableEq, Repr

/-- Why a command has no meaning in the model. -/
inductive Refusal where
  /-- Raised by `exec` for a command not modelled yet; safe. No arm raises it. -/
  | notModelled (mnemonic : String)
deriving DecidableEq, Repr

/-! Output lines (chapter 2) -/

/-- The level of a train's segment and of an output line (R22). -/
inductive LineLevel where
  | low
  | high
  | carrier
deriving DecidableEq, Repr

/-- How a line's pin is driven (R22). -/
inductive Drive where
  | off
  | pushPull
  | openDrain
deriving DecidableEq, Repr

/-- What a line does at a halt (R41). -/
inductive FaultLevel where
  | low
  | high
  | hold
  | off
deriving DecidableEq, Repr

/-- A running carrier modulator: ticks since its cycle began, and its output (R28, R29). The output is
held apart from the position because CARRIER_TOGGLE is a step of its own (log 15). -/
structure Modulator where
  position : Nat
  high     : Bool
deriving DecidableEq, Repr

/-- An output line record (section 2.1). `modulator` is none while the modulator is stopped. -/
structure Line where
  drive      : Drive
  idle       : Level
  faultLevel : FaultLevel
  highWidth  : Nat
  period     : Nat
  present    : LineLevel
  owner      : Option (Fin 32)
  successor  : Option (Fin 32)
  modulator  : Option Modulator
deriving DecidableEq, Repr

/-- What an OUT pin shows (R22). -/
inductive PinOut where
  | drivenLow
  | drivenHigh
  | released
deriving DecidableEq, Repr

/-! Trains (chapter 3) -/

/-- The states of a live train; a FREE slot holds none (R42, R49). -/
inductive TrainState where
  | waiting
  | armed
  | running
  | stopping
deriving DecidableEq, Repr

/-- One (level, duration) pair of a train (R43). -/
structure Segment where
  level    : LineLevel
  duration : Nat
deriving DecidableEq, Repr

/-- What decides a train's start, with the reference and offset it needs (R45, R97). -/
inductive StartCondition where
  | atTime
  | now
  | afterEdge (capture : Tag) (edge : Nat) (offset : Nat)
  | afterEnd (train : Tag) (offset : Nat)
deriving DecidableEq, Repr

/-- The level a train leaves its line at (R36). -/
inductive EndPolicy where
  | idle
  | hold
deriving DecidableEq, Repr

/-- Whether a pending stop cascades (R64). -/
inductive StopKind where
  | none
  | plain
  | cascade
deriving DecidableEq, Repr

/-- A train record (section 3.1). -/
structure Train where
  state       : TrainState
  tag         : Tag
  line        : Fin 16
  ring        : Fin 4
  segments    : List Segment
  repeatCount : Nat
  repsDone    : Nat
  index       : Nat
  start       : StartCondition
  endPolicy   : EndPolicy
  lateOk      : Bool
  late        : Bool
  startTime   : Option Time
  stopKind    : StopKind
deriving DecidableEq, Repr

/-! Inputs and captures (chapter 4) -/

/-- A level under test in the filter, and the tick it was first seen (R74). -/
structure Candidate where
  level     : Level
  firstSeen : Time
deriving DecidableEq, Repr

/-- An input line record (section 4.1), with the level at its pin and the raw level last sampled from
it. `sampled` says that the raw level of the present tick is settled, and that what the pin shows is for the next
tick (R206, log 7). -/
structure InputLine where
  enabled      : Bool
  filterLength : Nat
  filtered     : Level
  candidate    : Option Candidate
  pin          : Level
  raw          : Level
  sampled      : Bool
deriving DecidableEq, Repr

/-- The direction of an edge (R74). -/
inductive Direction where
  | rising
  | falling
deriving DecidableEq, Repr

/-- The directions a capture takes (R86). -/
inductive EdgeSelect where
  | rising
  | falling
  | both
deriving DecidableEq, Repr

/-- EACH: a record for every edge; SUMMARY: the final record only (R87). -/
inductive ReportMode where
  | each
  | summary
deriving DecidableEq, Repr

/-- The states of a live capture; a FREE slot holds none (R80). -/
inductive CaptureState where
  | pending
  | opened
deriving DecidableEq, Repr

/-- A capture record (section 4.5). -/
structure Capture where
  state         : CaptureState
  tag           : Tag
  line          : Fin 8
  ring          : Fin 4
  edgeSelect    : EdgeSelect
  reportMode    : ReportMode
  openTime      : Time
  effectiveOpen : Time
  closeTime     : Time
  edgeLimit     : Nat
  taken         : Nat
  dropped       : Nat
  firstStamp    : Option Time
  lateOpen      : Bool
deriving DecidableEq, Repr

/-! Calendar (chapter 1) -/

/-- A live work, by its table and slot (R10, R11). -/
inductive Owner where
  | train (slot : Fin 32)
  | capture (slot : Fin 16)
  | fence
deriving DecidableEq, Repr

/-- What an owner does when its entry is delivered (section 1.6). -/
inductive Action where
  | start
  | boundary
  | openWindow
  | closeWindow
  | timeout
deriving DecidableEq, Repr

/-- A calendar entry (section 1.6); its admission order is its owner's place on the admission list. -/
structure Entry where
  due    : Time
  owner  : Owner
  action : Action
deriving DecidableEq, Repr

/-! Completion records and rings (chapters 7, 8, 10) -/

/-- The kinds of completion record (R204). -/
inductive RecordKind where
  | cmdDone
  | trainEnd
  | captureEdge
  | captureEnd
  | fenceEnd
deriving DecidableEq, Repr

/-- The statuses of completion records (R205). -/
inductive Status where
  | ok
  | stopped
  | cancelled
  | triggerLost
  | aborted
  | countReached
  | deadline
  | timeout
  | badKind
  | badField
  | noSlot
  | tagInUse
  | noSuchTag
  | lineBusy
  | lineOff
  | startPast
  | triggerPassed
  | ringBusy
  | ringFault
  | noRing
  | busy
deriving DecidableEq, Repr

/-- A staged completion record: every field but the phase, which the write supplies (R155, R204). -/
structure Completion where
  kind      : RecordKind
  status    : Status
  late      : Bool
  lateOpen  : Bool
  cascade   : Bool
  direction : Direction
  mask      : BitVec 8
  tag       : Tag
  sqHead    : Nat
  time      : Time
  time2     : Time
  count     : Nat
  dropped   : Nat
deriving DecidableEq, Repr

/-- Whether a ring exists, is in service, or has been taken out of service (section 7.1). -/
inductive RingState where
  | undefined
  | active
  | faulted
deriving DecidableEq, Repr

/-- The holdoff timer of a ring (R171). -/
inductive HoldoffTimer where
  | stopped
  | running (expiry : Time)
  | expired
deriving DecidableEq, Repr

/-- A ring record with its notifier state (sections 7.1 and 8.1). -/
structure Ring where
  state      : RingState
  base       : HostAddr
  size       : Nat
  writeIndex : Nat
  phase      : Bool
  hostHead   : Nat
  staged     : List Completion
  owed       : Nat
  level      : Fin 4
  threshold  : Nat
  holdoff    : Nat
  unnotified : Nat
  timer      : HoldoffTimer
  awaiting   : Bool
deriving DecidableEq, Repr

/-- A closing message held by the arbiter, with its ring and that ring's service level (R182). -/
structure ClosingMessage where
  level : Fin 4
  ring  : Fin 4
deriving DecidableEq, Repr

/-! Command unit (chapter 6) -/

/-- The outstanding submission read, with the ticks since its issue (R117, R121). -/
structure SubmissionRead where
  index   : Nat
  address : HostAddr
  elapsed : Nat
deriving DecidableEq, Repr

/-- A waiting fence (R136); its TIMEOUT entry and its place on the admission list stand there. -/
structure Fence where
  count      : Nat
  ring       : Fin 4
  acceptedAt : Time
  tag        : Tag
deriving DecidableEq, Repr

/-- The fetch state with what the unit holds in it: a read is outstanding exactly in READING, a record
held exactly in STALLED, a fence waiting exactly in FENCED (section 6.1). -/
inductive Fetch where
  | idle
  | reading (read : SubmissionRead)
  | stalled (held : Submission) (returnTick : Time)
  | fenced (fence : Fence)
deriving DecidableEq, Repr

/-- What a tag names (R131). -/
inductive Work where
  | train (slot : Fin 32)
  | capture (slot : Fin 16)
deriving DecidableEq, Repr

/-! Control block and host link (chapters 8, 9) -/

/-- The device state (R184). -/
inductive DeviceState where
  | off
  | running
  | quiescing
  | halted
deriving DecidableEq, Repr

/-- The last cause (R184). -/
inductive Cause where
  | none
  | configInvalid
  | sqTailRange
  | sqReadError
  | cr0HeadRange
  | cr0HeadOverrun
  | quiesced
  | quiesceTimeout
deriving DecidableEq, Repr

/-- The fatal causes (R188). -/
inductive FatalCause where
  | sqTailRange
  | sqReadError
  | cr0HeadRange
  | cr0HeadOverrun
deriving DecidableEq, Repr

/-- The reference clock at the part: `resuming` from its resumption to the first tick after it (R2). -/
inductive RefClock where
  | running
  | stopped
  | resuming
deriving DecidableEq, Repr

/-- An interrupt vector of the link's configuration space, with the message held pending for it (R180). -/
structure MsiVector where
  address : HostAddr
  data    : BitVec 32
  masked  : Bool
  held    : Bool
deriving DecidableEq, Repr

/-- A posted write handed to the host link (R153, R175, R180). -/
inductive PostedWrite where
  | record (address : HostAddr) (bytes : List Byte)
  | message (vector : Fin 4) (address : HostAddr) (data : BitVec 32)
deriving DecidableEq, Repr

/-- The events of the host link that wait while the reference clock is stopped: register writes, the
answer of a submission read, and readiness to take a posted write (R2). -/
inductive HostEvent where
  | ctrl (enable softReset : Bool)
  | sqTail (value : Word)
  | crHead (ring : Fin 4) (value : Word)
  | window (offset : BitVec 8) (write : RegisterWrite)
  | readReturn (of : ReadId) (record : Submission)
  | readError (of : ReadId)
  | writeReady
deriving DecidableEq, Repr

/-- The state of the block. INVENTORY.md names the rule of each field. -/
structure State where
  deviceTime       : Time
  timeRestart      : Bool
  timeCapture      : Time
  refclk           : RefClock
  resetHeld        : Bool
  calendar         : List Entry
  admission        : List Owner
  trains           : Vector (Option Train) 32
  lines            : Vector Line 16
  inputs           : Vector InputLine 8
  captures         : Vector (Option Capture) 16
  head             : Nat
  tail             : Nat
  fetch            : Fetch
  discardedReads   : Nat
  admissionCounter : BitVec 32
  tagMap           : List (Tag × Work)
  rings            : Vector Ring 4
  haltMessage      : Bool
  closing          : List ClosingMessage
  device           : DeviceState
  lastCause        : Cause
  discardedCount   : Nat
  commandDropped   : Bool
  quiesceElapsed   : Nat
  sqBaseLo         : Word
  sqBaseHi         : Word
  sqSize           : Word
  cr0BaseLo        : Word
  cr0BaseHi        : Word
  cr0Cfg           : Word
  busMastering     : Bool
  msiEnabled       : Bool
  vectorsEnabled   : Nat
  vectors          : Vector MsiVector 4
  heldEvents       : List HostEvent
  linkOut          : List PostedWrite
  readData         : List Byte
  choices          : Nat
  pending          : List Instr
deriving DecidableEq, Repr

/-- An output line record after reset (R21). -/
def Line.reset : Line :=
  { drive := .off, idle := .low, faultLevel := .off, highWidth := 0, period := 0, present := .low
    owner := none, successor := none, modulator := none }

/-- An input line record after reset (R73). The pin is LOW, as its pull-down gives when nothing drives
it (R206; DESIGN CHOICE, unsafe, log 7). -/
def InputLine.reset : InputLine :=
  { enabled := false, filterLength := 0, filtered := .low, candidate := none
    pin := .low, raw := .low, sampled := false }

/-- A ring that is UNDEFINED (R145) with its notifier at the starting values (R170). Its settings have
no effect (DESIGN CHOICE 0, log 16). -/
def Ring.undefined : Ring :=
  { state := .undefined, base := 0, size := 0, writeIndex := 0, phase := true, hostHead := 0
    staged := [], owed := 0, level := 0, threshold := 0, holdoff := 0
    unnotified := 0, timer := .stopped, awaiting := false }

/-- A vector as the link's own reset leaves it (PRESUMED, PCI Express, unsafe, log 10). -/
def MsiVector.reset : MsiVector := { address := 0, data := 0, masked := false, held := false }

/-- The machine right after power-on reset has been released (R3, R19, R21, R42, R73, R80, R116, R145,
R170, R184, R197, R199; log 5 for the release, logs 6 to 10, 14 and 16 for the fields whose value is
the model's). -/
def State.reset : State :=
  { deviceTime := 0, timeRestart := true, timeCapture := 0, refclk := .running, resetHeld := false
    calendar := [], admission := []
    trains := Vector.replicate 32 none
    lines := Vector.replicate 16 Line.reset
    inputs := Vector.replicate 8 InputLine.reset
    captures := Vector.replicate 16 none
    head := 0, tail := 0, fetch := .idle, discardedReads := 0, admissionCounter := 0, tagMap := []
    rings := Vector.replicate 4 Ring.undefined
    haltMessage := false, closing := []
    device := .off, lastCause := .none, discardedCount := 0, commandDropped := false, quiesceElapsed := 0
    sqBaseLo := 0, sqBaseHi := 0, sqSize := 0, cr0BaseLo := 0, cr0BaseHi := 0, cr0Cfg := 0
    busMastering := false, msiEnabled := false, vectorsEnabled := 1
    vectors := Vector.replicate 4 MsiVector.reset
    heldEvents := [], linkOut := [], readData := [], choices := 0, pending := [] }

end Sys2Proof.Machine
end

