-- ==== Sys2Proof/Machine/Ops.lean ====
section
/-! DEFINITION. The named operations the blocks share: the tables, time, the calendar and its admission
list, the rings' account, and the issue and discard of submission reads. -/

namespace Sys2Proof.Machine

/-! The tables -/

/-- The train in a slot, if it is live. -/
def State.train (s : State) (i : Fin 32) : Option Train := s.trains[i]

/-- The capture in a slot, if it is live. -/
def State.capture (s : State) (i : Fin 16) : Option Capture := s.captures[i]

/-- The record of an output line. -/
def State.line (s : State) (i : Fin 16) : Line := s.lines[i]

/-- The record of an input line. -/
def State.input (s : State) (i : Fin 8) : InputLine := s.inputs[i]

/-- The record of a completion ring. -/
def State.ring (s : State) (i : Fin 4) : Ring := s.rings[i]

/-- Fill or free a train slot. -/
def State.setTrain (s : State) (i : Fin 32) (t : Option Train) : State :=
  { s with trains := s.trains.set i t }

/-- Fill or free a capture slot. -/
def State.setCapture (s : State) (i : Fin 16) (c : Option Capture) : State :=
  { s with captures := s.captures.set i c }

/-- Replace an output line record. -/
def State.setLine (s : State) (i : Fin 16) (l : Line) : State := { s with lines := s.lines.set i l }

/-- Replace an input line record. -/
def State.setInput (s : State) (i : Fin 8) (l : InputLine) : State :=
  { s with inputs := s.inputs.set i l }

/-- Replace a ring record. -/
def State.setRing (s : State) (i : Fin 4) (r : Ring) : State := { s with rings := s.rings.set i r }

/-! Time (R4, R5) -/

/-- `t` is in the future of `now`: 1 to 2^47-1 ticks ahead, modulo 2^48 (R4). -/
def isFuture (now t : Time) : Bool := decide (1 ≤ t.ahead now) && decide (t.ahead now ≤ Config.horizon)

/-- `t` is not before `from`: 0 to 2^47-1 ticks after it, modulo 2^48 (R86). -/
def notBefore (start t : Time) : Bool := decide (t.ahead start ≤ Config.horizon)

/-- A time `n` ticks after `t`, modulo 2^48 (R5). -/
def after (t : Time) (n : Nat) : Time := t + BitVec.ofNat 48 n

/-! The calendar and the admission list (R10 to R17) -/

/-- The owner's place on the admission list: 0 is the oldest work (R11). -/
def State.rank (s : State) (o : Owner) : Nat := s.admission.idxOf o

/-- Calendar order: the nearer due time, and at equal due times the older owner, stands first (R12). -/
def State.standsBefore (s : State) (e f : Entry) : Bool :=
  decide (e.due.ahead s.deviceTime < f.due.ahead s.deviceTime)
    || (decide (e.due = f.due) && decide (s.rank e.owner < s.rank f.owner))

/-- An entry at its place in calendar order: before the first that it stands before (R12). -/
def placeEntry (before : Entry → Entry → Bool) (e : Entry) : List Entry → List Entry
  | [] => [e]
  | f :: fs => if before e f then e :: f :: fs else f :: placeEntry before e fs

/-- An insertion request: the entry at its place when its due time is in the future, and otherwise no
entry and the answer "past", which is none (R13). -/
def State.request (s : State) (o : Owner) (a : Action) (due : Time) : Option State :=
  if isFuture s.deviceTime due then
    some { s with calendar := placeEntry s.standsBefore { due := due, owner := o, action := a } s.calendar }
  else none

/-- An insertion request whose due time the spec guarantees to be in the future (R13): the answer "past"
does not arise, and would leave the state as it is (log 23). -/
def State.insert (s : State) (o : Owner) (a : Action) (due : Time) : State := (s.request o a due).getD s

/-- A work joins the tail of the admission list (R11). -/
def State.join (s : State) (o : Owner) : State := { s with admission := s.admission ++ [o] }

/-- A work's entry, if it holds one, is removed and the work leaves the admission list; the order of the
others is kept (R17). -/
def State.leave (s : State) (o : Owner) : State :=
  { s with
    calendar := s.calendar.filter (fun e => !decide (e.owner = o))
    admission := s.admission.filter (fun w => !decide (w = o)) }

/-- The entry that the calendar delivers now: its head, when device time has reached its due time
(R12, R15). -/
def State.dueEntry (s : State) : Option Entry :=
  match s.calendar with
  | [] => none
  | e :: _ => if e.due = s.deviceTime then some e else none

/-- The state with the calendar's head removed (R15). -/
def State.popEntry (s : State) : State := { s with calendar := s.calendar.tail }

/-- Delivery of the entry of `o` with action `a`: when it is the one the calendar delivers now, it is
removed and the owner acts (R15); else no such delivery takes place and nothing changes (log 4). -/
def State.deliver (s : State) (o : Owner) (a : Action) (act : State → State) : State :=
  if s.dueEntry = some { due := s.deviceTime, owner := o, action := a } then act s.popEntry else s

/-- The slots of the live trains, oldest first (R11, R97). -/
def State.trainOrder (s : State) : List (Fin 32) :=
  s.admission.filterMap fun o => match o with
    | .train i => some i
    | _ => none

/-- The slots of the live captures, oldest first (R11, R79). -/
def State.captureOrder (s : State) : List (Fin 16) :=
  s.admission.filterMap fun o => match o with
    | .capture i => some i
    | _ => none

/-- The lowest-numbered FREE train slot (R42). -/
def State.freeTrain (s : State) : Option (Fin 32) := (List.finRange 32).find? fun i => (s.train i).isNone

/-- The lowest-numbered FREE capture slot (R80). -/
def State.freeCapture (s : State) : Option (Fin 16) := (List.finRange 16).find? fun i => (s.capture i).isNone

/-! The tag map (R131) -/

/-- What a tag names, if it names a live work. -/
def State.lookup (s : State) (t : Tag) : Option Work := (s.tagMap.find? fun e => decide (e.1 = t)).map (·.2)

/-- Name a work. -/
def State.addTag (s : State) (t : Tag) (w : Work) : State := { s with tagMap := s.tagMap ++ [(t, w)] }

/-- Remove a work's name at its end. -/
def State.dropTag (s : State) (w : Work) : State :=
  { s with tagMap := s.tagMap.filter fun e => !decide (e.2 = w) }

/-! The rings' account (R147 to R150) -/

/-- Staged records plus owed finals (R147). -/
def Ring.account (r : Ring) : Nat := r.staged.length + r.owed

/-- The ring has a place left (R148, R150). -/
def Ring.hasPlace (r : Ring) : Bool := decide (r.account < Config.accountPlaces)

/-- A reservation is granted: one more place owed (R148). -/
def State.reserve (s : State) (i : Fin 4) : State :=
  s.setRing i { s.ring i with owed := (s.ring i).owed + 1 }

/-- A final is staged at the tail of its ring's queue, in the place that was owed to it (R149). -/
def State.stageFinal (s : State) (i : Fin 4) (c : Completion) : State :=
  s.setRing i { s.ring i with staged := (s.ring i).staged ++ [c], owed := (s.ring i).owed - 1 }

/-- A record without a reservation is staged (R150). -/
def State.stageFree (s : State) (i : Fin 4) (c : Completion) : State :=
  s.setRing i { s.ring i with staged := (s.ring i).staged ++ [c] }

/-- A record of a kind with the fields that every producer fills at the tick of staging: sq_head and the
end or event time; what a kind does not carry is zero (R155, R204). -/
def State.blankRecord (s : State) (k : RecordKind) (st : Status) (t : Tag) : Completion :=
  { kind := k, status := st, late := false, lateOpen := false, cascade := false, direction := .rising
    mask := 0, tag := t, sqHead := s.head, time := s.deviceTime, time2 := s.deviceTime
    count := 0, dropped := 0 }

/-! Submission reads (R117, R120) -/

/-- Base of the submission ring, from its two registers (R199). -/
def State.sqBase (s : State) : HostAddr := s.sqBaseHi ++ s.sqBaseLo

/-- A read of the record at head is issued when the device is RUNNING, the unit IDLE, head differs from
tail and bus mastering is enabled (R117). -/
def State.issueRead (s : State) : State :=
  if s.device = .running ∧ s.fetch = .idle ∧ s.head ≠ s.tail ∧ s.busMastering = true then
    { s with fetch := .reading (SubmissionRead.mk s.head (s.sqBase + BitVec.ofNat 64 (64 * s.head)) 0) }
  else s

/-- A held answer of a submission read that is discarded before the answer is taken: the part knows it by
its request identification, and it answers no later read (R2, R120). -/
def HostEvent.ofDiscarded : HostEvent → HostEvent
  | .readReturn _ c => .readReturn .discarded c
  | .readError _ => .readError .discarded
  | e => e

/-- An outstanding read is discarded: it stays on the link, its data to be dropped, also when that data
already waits among the held events (R2, R120, R143). -/
def State.discardRead (s : State) : State :=
  match s.fetch with
  | .reading _ =>
    { s with
      fetch := .idle
      discardedReads := s.discardedReads + 1
      heldEvents := s.heldEvents.map HostEvent.ofDiscarded }
  | _ => s

end Sys2Proof.Machine
end

