-- ==== Sys2Proof/Machine/Lines.lean ====
section
/-! DEFINITION. The line block: output lines, carrier modulators, ownership and succession (chapter 2). -/

namespace Sys2Proof.Machine

/-- A resting level as a line level. -/
def LineLevel.rest : Level → LineLevel
  | .low => .low
  | .high => .high

/-- The line takes a level: CARRIER starts or restarts the modulator at position 0, with its output
high, and LOW or HIGH stops it (R28, R30, R31, R35). -/
def Line.take (l : Line) (v : LineLevel) : Line :=
  { l with
    present := v
    modulator := match v with
      | .carrier => some { position := 0, high := decide (0 < l.highWidth) }
      | .low => none
      | .high => none }

/-- A level with a held CARRIER turned into LOW (R36, R41). -/
def LineLevel.settled : LineLevel → LineLevel
  | .carrier => .low
  | .low => .low
  | .high => .high

/-- The level an ending owner leaves (R36, R57). -/
def Line.endLevel (l : Line) (st : Status) (p : EndPolicy) : LineLevel :=
  if st = .aborted then LineLevel.rest l.idle
  else match p with
    | .idle => LineLevel.rest l.idle
    | .hold => l.present.settled

/-- The line at its owner's end: it takes the ending level, and its successor, if any, becomes the owner
(R36, R37). -/
def Line.ownerEnded (l : Line) (st : Status) (p : EndPolicy) : Line :=
  { l.take (l.endLevel st p) with owner := l.successor, successor := none }

/-- The line at the end of train `i`: as owner by R36 and R37, as successor by R38. -/
def Line.trainEnded (l : Line) (i : Fin 32) (st : Status) (p : EndPolicy) : Line :=
  if l.owner = some i then l.ownerEnded st p
  else if l.successor = some i then { l with successor := none }
  else l

/-- A claim at admission: owner of an ownerless line, else successor (R34). -/
def Line.claim (l : Line) (i : Fin 32) : Line :=
  if l.owner = none then { l with owner := some i } else { l with successor := some i }

/-- The line's carrier is set: both carrier fields are non-zero (R32). -/
def Line.carrierSet (l : Line) : Bool := decide (l.highWidth ≠ 0) && decide (l.period ≠ 0)

/-- A SET_OUTPUT's settings, with the line at its new idle level (R26). -/
def Line.set (l : Line) (d : Drive) (idle : Level) (f : FaultLevel) (high period : Nat) : Line :=
  ({ l with drive := d, idle := idle, faultLevel := f, highWidth := high, period := period } : Line).take
    (LineLevel.rest idle)

/-- The line at a halt: ownerless, its modulator stopped, at its fault level (R41). -/
def Line.halt (l : Line) : Line :=
  let v := match l.faultLevel with
    | .low => LineLevel.low
    | .high => LineLevel.high
    | .hold => l.present.settled
    | .off => l.present.settled
  { l.take v with
    drive := if l.faultLevel = .off then .off else l.drive
    owner := none
    successor := none }

/-- A modulator one tick on, its output as it was until CARRIER_TOGGLE changes it (R29, log 15). -/
def Modulator.advance (m : Modulator) (period : Nat) : Modulator :=
  { m with position := (m.position + 1) % period }

/-- The line one tick on. -/
def Line.advance (l : Line) : Line :=
  { l with modulator := l.modulator.map fun m => m.advance l.period }

/-- The carrier output that the position calls for: high below the high width (R29). -/
def Line.carrierHigh (l : Line) (m : Modulator) : Bool := decide (m.position < l.highWidth)

/-- The carrier output is due to change: the position has reached the high width or wrapped (R29). -/
def Line.toggleDue (l : Line) : Bool :=
  match l.modulator with
  | none => false
  | some m => decide (m.high ≠ l.carrierHigh m)

/-- The line with its carrier output changed (R29). -/
def Line.toggle (l : Line) : Line :=
  { l with modulator := l.modulator.map fun m => { m with high := l.carrierHigh m } }

/-- The pin of a line (R22). -/
def Line.pinOut (l : Line) : PinOut :=
  let up : Bool := match l.present with
    | .low => false
    | .high => true
    | .carrier => (l.modulator.map (·.high)).getD false
  match l.drive with
  | .off => .released
  | .pushPull => if up then .drivenHigh else .drivenLow
  | .openDrain => if up then .released else .drivenLow

/-- The OUT pin of a line: released while a reset is held (R21, R197, R206). -/
def State.pinOut (s : State) (i : Fin 16) : PinOut :=
  if s.resetHeld then .released else (s.line i).pinOut

/-- A level request of a line's owner (R35). -/
def State.levelRequest (s : State) (i : Fin 16) (v : LineLevel) : State := s.setLine i ((s.line i).take v)

/-- Every line changed alike. -/
def State.onLines (s : State) (f : Line → Line) : State := { s with lines := Vector.ofFn fun i => f (s.line i) }

end Sys2Proof.Machine
end

