-- ==== Sys2Proof/Machine/Trains.lean ====
section
/-! DEFINITION. The train engine: segments, starts, ends, waiters and cascades (chapters 3 and 5), with the
report of each end to a waiting fence (chapter 6). -/

namespace Sys2Proof.Machine

/-! The fence's part in an end (R138, R140) -/

/-- The fence ends: its TIMEOUT and its place on the list go, FENCE_END is staged on its ring, and the
unit is IDLE (R138, R139, R140, R141). -/
def State.endFence (s : State) (f : Fence) (st : Status) : State :=
  { (s.leave .fence).stageFinal f.ring
      { s.blankRecord .fenceEnd st f.tag with time2 := f.acceptedAt, count := f.count }
    with fetch := .idle }

/-- The end of a work is reported to a waiting fence, which ends OK at count 0; in a quiesce sweep the
count is only lowered (R138, R141). -/
def State.reportEnd (s : State) : State :=
  match s.fetch with
  | .fenced f =>
    let g := { f with count := f.count - 1 }
    if g.count = 0 ∧ s.device = .running then (s.endFence g .ok).issueRead
    else { s with fetch := .fenced g }
  | _ => s

/-! Segments and starts -/

/-- The train in slot `i` begins segment `k`: the line takes its level and a BOUNDARY is requested at its
end (R43, R50, R51, R52). -/
def State.enterSegment (s : State) (i : Fin 32) (t : Train) (k : Nat) : State :=
  match t.segments[k]? with
  | none => s.setTrain i (some { t with index := k })
  | some g =>
    ((s.setTrain i (some { t with index := k })).levelRequest t.line g.level).insert
      (.train i) .boundary (after s.deviceTime g.duration)

/-- The train goes RUNNING with segment 0 (R50, R54, R104). -/
def State.begin (s : State) (i : Fin 32) (t : Train) : State :=
  s.enterSegment i { t with state := .running } 0

/-- A waiting train starts at this tick (R54, R107). -/
def State.startNow (s : State) (i : Fin 32) (t : Train) : State :=
  s.begin i { t with startTime := some s.deviceTime }

/-- A waiting train is armed for an asked start time; when that is not in the future it starts at this
tick, late if the asked time lies before it (R54, R55, R103, R104). -/
def State.arm (s : State) (i : Fin 32) (t : Train) (asked : Time) : State :=
  match s.request (.train i) .start asked with
  | some s' => s'.setTrain i (some { t with state := .armed, startTime := some asked })
  | none => s.startNow i { t with late := t.late || decide (asked ≠ s.deviceTime) }

/-! Waiters (R97) -/

/-- The WAITING trains whose start condition satisfies `p`, oldest first. -/
def State.waiters (s : State) (p : StartCondition → Bool) : List (Fin 32) :=
  s.trainOrder.filter fun i => match s.train i with
    | some t => decide (t.state = .waiting) && p t.start
    | none => false

/-- Waits on the end of the train with this tag. -/
def StartCondition.onEnd (g : Tag) : StartCondition → Bool
  | .afterEnd r _ => decide (r = g)
  | _ => false

/-- Waits on edge `k` of the capture with this tag. -/
def StartCondition.onEdge (g : Tag) (k : Nat) : StartCondition → Bool
  | .afterEdge r n _ => decide (r = g) && decide (n = k)
  | _ => false

/-- Waits on any edge of the capture with this tag. -/
def StartCondition.onCapture (g : Tag) : StartCondition → Bool
  | .afterEdge r _ _ => decide (r = g)
  | _ => false

/-- The offset of a waiting train's start; 0 for a train that does not wait. -/
def StartCondition.offset : StartCondition → Nat
  | .afterEdge _ _ o => o
  | .afterEnd _ o => o
  | .atTime => 0
  | .now => 0

/-- A waiter is released at its predecessor's end: started at offset 0, armed otherwise (R107). -/
def State.release (s : State) (i : Fin 32) : State :=
  match s.train i with
  | none => s
  | some t =>
    if t.start.offset = 0 then s.startNow i t
    else s.arm i t (after s.deviceTime t.start.offset)

/-- The trains that a cascade from the train with this tag ends, in the order it ends them: depth first,
within a waiter set oldest first, every train after those that wait on it (R111). `n` bounds the depth;
a chain is at most 32 trains deep (R97). -/
def State.cascadeOrder (s : State) : Nat → Tag → List (Fin 32)
  | 0, _ => []
  | n + 1, g => (s.waiters (StartCondition.onEnd g)).flatMap fun i =>
      (match s.train i with
        | some t => s.cascadeOrder n t.tag
        | none => []) ++ [i]

/-! Ends (R56) -/

/-- The tick a train took segment 0, or the end tick when it took none (R59). -/
def Train.time2 (t : Train) (now : Time) : Time :=
  match t.state with
  | .running | .stopping => t.startTime.getD now
  | .waiting | .armed => now

/-- The TRAIN_END record (R59). -/
def State.trainEndRecord (s : State) (t : Train) (st : Status) (cascaded : Bool) : Completion :=
  { s.blankRecord .trainEnd st t.tag with
    late := t.late, cascade := cascaded, time2 := t.time2 s.deviceTime, count := t.repsDone }

/-- Steps 2 to 6 of a train's end: entry, list and tag go, the line is told, TRAIN_END is staged, the
slot is FREE (R56). -/
def State.closeTrain (s : State) (i : Fin 32) (st : Status) (cascaded : Bool) : State :=
  match s.train i with
  | none => s
  | some t =>
    let s1 := (s.leave (.train i)).dropTag (.train i)
    let s2 := s1.setLine t.line ((s1.line t.line).trainEnded i st t.endPolicy)
    (s2.stageFinal t.ring (s.trainEndRecord t st cascaded)).setTrain i none

/-- The end of a train reached by a cascade, those that wait on it having ended before (R111). -/
def State.endCascaded (s : State) (i : Fin 32) : State := (s.closeTrain i .cancelled true).reportEnd

/-- A train's end with its waiters ended in cascade first (R56 step 1, R65, R111). -/
def State.endTrainCascade (s : State) (i : Fin 32) (st : Status) : State :=
  match s.train i with
  | none => s
  | some t =>
    ((((s.cascadeOrder 32 t.tag).foldl State.endCascaded s).closeTrain i st false)).reportEnd

/-- A train's end with its waiters released, oldest first (R56 step 7, R107). -/
def State.endTrain (s : State) (i : Fin 32) (st : Status) : State :=
  match s.train i with
  | none => s
  | some t =>
    let c := s.closeTrain i st false
    ((c.waiters (StartCondition.onEnd t.tag)).foldl State.release c).reportEnd

/-- A train's end in the quiesce sweep: no cascade and no release (R71, R114). -/
def State.abortTrain (s : State) (i : Fin 32) : State := (s.closeTrain i .aborted false).reportEnd

/-! Boundaries and CANCEL -/

/-- Repetitions done after one more: an endless train's count stays at its ceiling (R44). -/
def Train.repsAfter (t : Train) : Nat :=
  if t.repeatCount = 0 then min (t.repsDone + 1) Config.countCeiling else t.repsDone + 1

/-- A BOUNDARY delivered to the train in slot `i` (R51, R52, R53). -/
def State.boundary (s : State) (i : Fin 32) : State :=
  match s.train i with
  | none => s
  | some t =>
    if t.index + 1 < t.segments.length then s.enterSegment i t (t.index + 1)
    else
      let u := { t with repsDone := t.repsAfter }
      let s' := s.setTrain i (some u)
      if t.state = .stopping then
        if t.stopKind = .cascade then s'.endTrainCascade i .stopped else s'.endTrain i .stopped
      else if u.repeatCount ≠ 0 ∧ u.repsDone = u.repeatCount then s'.endTrain i .ok
      else s'.enterSegment i u 0

/-- CANCEL IMMEDIATE of a train: it ends CANCELLED, in cascade when the CANCEL or a recorded stop says so
(R63, R65). -/
def State.cancelNow (s : State) (i : Fin 32) (cascade : Bool) : State :=
  match s.train i with
  | none => s
  | some t =>
    if cascade || (decide (t.state = .stopping) && decide (t.stopKind = .cascade)) then
      s.endTrainCascade i .cancelled
    else s.endTrain i .cancelled

/-- CANCEL AT_PERIOD_END of a train (R64). -/
def State.cancelAtPeriodEnd (s : State) (i : Fin 32) (cascade : Bool) : State :=
  match s.train i with
  | none => s
  | some t =>
    match t.state with
    | .running =>
      s.setTrain i (some { t with state := .stopping, stopKind := if cascade then .cascade else .plain })
    | .stopping => s
    | .waiting => s.cancelNow i cascade
    | .armed => s.cancelNow i cascade

end Sys2Proof.Machine
end

