-- ==== Sys2Proof/Machine/Captures.lean ====
section
/-! DEFINITION. The input sampler and the capture unit (chapter 4), and the triggers that captures fire
(chapter 5). -/

namespace Sys2Proof.Machine

/-! Capture ends (R90 to R92) -/

/-- The CAPTURE_END record (R92). -/
def State.captureEndRecord (s : State) (c : Capture) (st : Status) : Completion :=
  { s.blankRecord .captureEnd st c.tag with
    lateOpen := c.lateOpen, time2 := c.firstStamp.getD s.deviceTime, count := c.taken, dropped := c.dropped }

/-- Steps 1 to 3 of a capture's end: entry, list and tag go, CAPTURE_END is staged (R91). -/
def State.closeCapture (s : State) (i : Fin 16) (c : Capture) (st : Status) : State :=
  (((s.leave (.capture i)).dropTag (.capture i)).stageFinal c.ring (s.captureEndRecord c st))

/-- A capture's end: its records and tag, then the trains still waiting on it end TRIGGER_LOST, oldest
first, then the slot is FREE and a waiting fence is told (R91, R106). -/
def State.endCapture (s : State) (i : Fin 16) (st : Status) : State :=
  match s.capture i with
  | none => s
  | some c =>
    let k := s.closeCapture i c st
    (((k.waiters (StartCondition.onCapture c.tag)).foldl (fun r j => r.endTrain j .triggerLost) k).setCapture
      i none).reportEnd

/-- A capture's end in the quiesce sweep, its waiters left to the sweep (R91, R95, R114). -/
def State.abortCapture (s : State) (i : Fin 16) : State :=
  match s.capture i with
  | none => s
  | some c => ((s.closeCapture i c .aborted).setCapture i none).reportEnd

/-! Taking edges (R79, R86 to R88, R103) -/

/-- The direction is selected (R86). -/
def EdgeSelect.takes : EdgeSelect → Direction → Bool
  | .both, _ => true
  | .rising, .rising => true
  | .falling, .falling => true
  | .rising, .falling => false
  | .falling, .rising => false

/-- The capture takes an edge of its line with this timestamp and direction (R86). -/
def Capture.takes (c : Capture) (stamp : Time) (d : Direction) : Bool :=
  decide (c.state = .opened) && c.edgeSelect.takes d && notBefore c.effectiveOpen stamp

/-- The CAPTURE_EDGE record of the edge just counted (R88). -/
def State.captureEdgeRecord (s : State) (c : Capture) (stamp : Time) (d : Direction) : Completion :=
  { s.blankRecord .captureEdge .ok c.tag with
    lateOpen := c.lateOpen, direction := d, time := stamp, count := c.taken, dropped := c.dropped }

/-- The edge's record is offered to the capture's ring: staged while the ring has a place, else dropped
and counted (R88, R150). In SUMMARY mode none is offered. -/
def State.reportEdge (s : State) (i : Fin 16) (c : Capture) (stamp : Time) (d : Direction) : State :=
  match c.reportMode with
  | .summary => s
  | .each =>
    if (s.ring c.ring).hasPlace then s.stageFree c.ring (s.captureEdgeRecord c stamp d)
    else s.setCapture i (some { c with dropped := min (c.dropped + 1) Config.shortCeiling })

/-- A train waiting on the edge is armed for timestamp plus offset (R103). -/
def State.fire (stamp : Time) (s : State) (j : Fin 32) : State :=
  match s.train j with
  | none => s
  | some t => s.arm j t (after stamp t.start.offset)

/-- The edge is the capture's last: it brings edges taken to the limit, or to 2^32-1 with none (R87). -/
def Capture.limitReached (c : Capture) : Bool :=
  if c.edgeLimit = 0 then decide (c.taken = Config.countCeiling) else decide (c.taken = c.edgeLimit)

/-- A capture takes an edge: counts it, keeps the first timestamp, reports it, fires its triggers oldest
waiter first, and ends if it was the last (R87). -/
def State.takeEdge (s : State) (i : Fin 16) (c : Capture) (stamp : Time) (d : Direction) : State :=
  let c1 := { c with taken := c.taken + 1, firstStamp := some (c.firstStamp.getD stamp) }
  let s2 := (s.setCapture i (some c1)).reportEdge i c1 stamp d
  let s3 := (s2.waiters (StartCondition.onEdge c.tag c1.taken)).foldl (State.fire stamp) s2
  if c1.limitReached then s3.endCapture i .countReached else s3

/-- One capture is given an edge of line `l`, and takes it or passes it (R79, R86). -/
def State.giveEdge (l : Fin 8) (stamp : Time) (d : Direction) (s : State) (i : Fin 16) : State :=
  match s.capture i with
  | none => s
  | some c => if c.line = l ∧ c.takes stamp d = true then s.takeEdge i c stamp d else s

/-- An edge is offered to the live captures on its line, oldest first (R79). -/
def State.offer (s : State) (l : Fin 8) (stamp : Time) (d : Direction) : State :=
  s.captureOrder.foldl (State.giveEdge l stamp d) s

/-! The filter (R74) -/

/-- The direction of a change to this level (R74). -/
def Direction.to : Level → Direction
  | .high => .rising
  | .low => .falling

/-- The line waits to be sampled at the present tick, its pin having changed before the sample (R1, R206,
log 7). A stop of the clock inside the tick does not undo that: the tick has begun, and the pin as it stood
when the clock stopped is its sample (R2, R74). -/
def State.sampleDue (s : State) (i : Fin 8) : Bool :=
  !s.resetHeld && !(s.input i).sampled && decide ((s.input i).pin ≠ (s.input i).raw)

/-- The raw level of the present tick: as last sampled, or as the pin shows it when it waits to be
sampled (R1, R206, log 7). -/
def State.rawNow (s : State) (i : Fin 8) : Level :=
  if s.sampleDue i then (s.input i).pin else (s.input i).raw

/-- The line with the raw level of the present tick settled (log 7). -/
def State.settled (s : State) (i : Fin 8) : InputLine :=
  { s.input i with raw := s.rawNow i, sampled := true }

/-- A candidate is confirmed: the filtered level takes it, and the edge is offered with the tick it was
first seen (R74). -/
def State.confirm (s : State) (i : Fin 8) (c : Candidate) : State :=
  (s.setInput i { s.input i with filtered := c.level, candidate := none }).offer i c.firstSeen
    (Direction.to c.level)

/-- The filter meets the raw level of this tick: a change starts a candidate, confirmed at once at filter
length 0, and a return to the filtered level discards one (R74). -/
def State.filter (s : State) (i : Fin 8) : State :=
  let l := s.input i
  if l.enabled = false then s
  else if l.raw = l.filtered then s.setInput i { l with candidate := none }
  else match l.candidate with
    | some _ => s
    | none =>
      let c : Candidate := { level := l.raw, firstSeen := s.deviceTime }
      if l.filterLength = 0 then s.confirm i c else s.setInput i { l with candidate := some c }

/-- The line is sampled at the present tick at level `seen`, while its pin shows `pin`: the filter meets a new
level (R74, R206). At the level last sampled nothing changes but the pin. -/
def State.sample (s : State) (i : Fin 8) (pin seen : Level) : State :=
  let l := s.input i
  if seen = l.raw then s.setInput i { l with pin := pin, sampled := decide (s.refclk ≠ .running) }
  else (s.setInput i { l with pin := pin, raw := seen, sampled := true }).filter i

/-- The level at an IN pin changes. The sampler sees it at this tick, unless it has already sampled the line at
this tick, the clock stands still, or a reset is held: then it sees the pin at the next tick at which it samples.
Where the clock stands still and the line is not yet sampled, the tick's sample is the level before the change
(R1, R2, R74, R197, R206, log 7). -/
def State.pinChange (s : State) (i : Fin 8) (v : Level) : State :=
  let l := s.input i
  if s.resetHeld then s.setInput i { l with pin := v, sampled := true }
  else if l.sampled then s.setInput i { l with pin := v }
  else s.sample i v (if s.refclk = .running then v else l.pin)

/-- The line's candidate is confirmed at this tick: it has been seen from its first-seen tick to now, the
filter length later (R74). -/
def State.confirmDue (s : State) (i : Fin 8) : Option Candidate :=
  let l := s.input i
  match l.candidate with
  | none => none
  | some c =>
    if l.enabled = true ∧ s.rawNow i = c.level ∧ s.deviceTime = after c.firstSeen l.filterLength then some c
    else none

/-! Windows (R85) -/

/-- A capture is OPEN: its CLOSE is requested when it has a close time (R84, R85). -/
def State.insertClose (s : State) (i : Fin 16) (c : Capture) : State :=
  if c.closeTime = 0 then s else s.insert (.capture i) .closeWindow c.closeTime

/-- A pending capture opens (R85). -/
def State.openCapture (s : State) (i : Fin 16) : State :=
  match s.capture i with
  | none => s
  | some c => (s.setCapture i (some { c with state := .opened, effectiveOpen := s.deviceTime })).insertClose i c

end Sys2Proof.Machine
end

