-- ==== Sys2Proof/Machine/Flags.lean ====
section
/-! DEFINITION. The flags and codes the block gives out: the faulted-ring mask, the 32 bytes of a
completion record, and the words of the registers that show a block's state (R162, R199, R201, R204,
R205). -/

namespace Sys2Proof.Machine

/-- A bit from a truth value. -/
def bit (b : Bool) : BitVec 1 := BitVec.ofBool b

/-- The faulted-ring mask: bit n is set when CRn is FAULTED (R162, R204). -/
def State.faultMask (s : State) : BitVec 8 :=
  0#4 ++ (bit (decide ((s.ring 3).state = .faulted)) ++ (bit (decide ((s.ring 2).state = .faulted))
    ++ (bit (decide ((s.ring 1).state = .faulted)) ++ bit (decide ((s.ring 0).state = .faulted)))))

/-- The codes of record kinds (R204). -/
def RecordKind.code : RecordKind → BitVec 8
  | .cmdDone => 1
  | .trainEnd => 2
  | .captureEdge => 3
  | .captureEnd => 4
  | .fenceEnd => 5

/-- The status codes (R205). -/
def Status.code : Status → BitVec 8
  | .ok => 0
  | .stopped => 1
  | .cancelled => 2
  | .triggerLost => 3
  | .aborted => 4
  | .countReached => 5
  | .deadline => 6
  | .timeout => 7
  | .badKind => 16
  | .badField => 17
  | .noSlot => 18
  | .tagInUse => 19
  | .noSuchTag => 20
  | .lineBusy => 21
  | .lineOff => 22
  | .startPast => 23
  | .triggerPassed => 24
  | .ringBusy => 25
  | .ringFault => 26
  | .noRing => 27
  | .busy => 28

/-- The flags byte: phase, late, late-open, cascade, direction in bits 0 to 4 (R204). -/
def Completion.flags (c : Completion) (phase : Bool) : BitVec 8 :=
  0#3 ++ (bit (decide (c.direction = .falling)) ++ (bit c.cascade ++ (bit c.lateOpen
    ++ (bit c.late ++ bit phase))))

/-- The 32 bytes of a completion record, written with the ring's phase (R153, R204). -/
def Completion.bytes (c : Completion) (phase : Bool) : List Byte :=
  [c.kind.code, c.status.code, c.flags phase, c.mask] ++ bytesOf c.tag 2
    ++ bytesOf (BitVec.ofNat 16 c.sqHead) 2
    ++ bytesOf (c.time.setWidth 64) 8 ++ bytesOf (c.time2.setWidth 64) 8
    ++ bytesOf (BitVec.ofNat 32 c.count) 4 ++ bytesOf (BitVec.ofNat 16 c.dropped) 2 ++ [0, 0]

/-- The device state codes of STAT (R199). -/
def DeviceState.code : DeviceState → BitVec 2
  | .off => 0
  | .running => 1
  | .quiescing => 2
  | .halted => 3

/-- The last cause codes of STAT (R199). -/
def Cause.code : Cause → BitVec 4
  | .none => 0
  | .configInvalid => 1
  | .sqTailRange => 2
  | .sqReadError => 3
  | .cr0HeadRange => 4
  | .cr0HeadOverrun => 5
  | .quiesced => 6
  | .quiesceTimeout => 7

/-- The ring state codes of a CRHEAD read (R199). -/
def RingState.code : RingState → BitVec 2
  | .undefined => 0
  | .active => 1
  | .faulted => 2

/-- STAT: device state in 1:0, last cause in 7:4, command-dropped in 8, discarded count in 24:16 (R199,
R201). -/
def State.statWord (s : State) : Word :=
  0#7 ++ (BitVec.ofNat 9 s.discardedCount ++ (0#7 ++ (bit s.commandDropped ++ (s.lastCause.code
    ++ (0#2 ++ s.device.code)))))

/-- CTRL: enable reads 1 in RUNNING, soft reset reads 0 (R185, R201). -/
def State.ctrlWord (s : State) : Word := 0#31 ++ bit (decide (s.device = .running))

/-- CRHEADn: host head in 11:0, write index in 27:16, ring state in 31:30 (R199, R201). -/
def Ring.headWord (r : Ring) : Word :=
  r.state.code ++ (0#2 ++ (BitVec.ofNat 12 r.writeIndex ++ (0#4 ++ BitVec.ofNat 12 r.hostHead)))

end Sys2Proof.Machine
end

