-- ==== Sys2Proof/Machine/Operands.lean ====
section
/-! DEFINITION. The operand forms: what the codes and fields of a submission record stand for, and the
fields of the CR0CFG register (R199, R202, R203). -/

namespace Sys2Proof

/-- The late-ok flag, bit 0 (R202). -/
def Header.lateOk (h : Header) : Bool := h.flags.getLsbD 0

/-- The cascade flag, bit 1 (R202). -/
def Header.cascade (h : Header) : Bool := h.flags.getLsbD 1

/-- The cancel mode, bits 3:2: 0 IMMEDIATE, 1 AT_PERIOD_END (R202). -/
def Header.cancelMode (h : Header) : Nat := (h.flags.extractLsb' 2 2).toNat

/-- The flag bits outside `defined` are all clear (R127). -/
def Header.flagsWithin (h : Header) (defined : BitVec 8) : Bool := decide (h.flags &&& ~~~defined = 0#8)

/-- The output line a record names, when its number is at most 15 (R202). -/
def Header.outLine (h : Header) : Option (Fin 16) :=
  if p : h.line.toNat < 16 then some ⟨h.line.toNat, p⟩ else none

/-- The input line a record names, when its number is at most 7 (R202). -/
def Header.inLine (h : Header) : Option (Fin 8) :=
  if p : h.line.toNat < 8 then some ⟨h.line.toNat, p⟩ else none

end Sys2Proof

namespace Sys2Proof.Machine

/-- The ring a number names, when it is at most 3 (R122). -/
def ringNumber (n : BitVec 8) : Option (Fin 4) :=
  if p : n.toNat < 4 then some ⟨n.toNat, p⟩ else none

/-- Bits 47:0 of a time field (R203). -/
def timeBits (x : BitVec 64) : Time := x.extractLsb' 0 48

/-- Bits 31:0 of a time field: an offset or a timeout (R203). -/
def offsetBits (x : BitVec 64) : Nat := (x.extractLsb' 0 32).toNat

/-- The bits of a time field above `n` are all clear. -/
def upperClear (n : Nat) (x : BitVec 64) : Bool := decide (x >>> n = 0#64)

/-- The drive codes (R203). -/
def driveOfCode (c : BitVec 8) : Option Drive :=
  if c = 0 then some .off else if c = 1 then some .pushPull else if c = 2 then some .openDrain else none

/-- The idle level codes (R203). -/
def levelOfCode (c : BitVec 8) : Option Level :=
  if c = 0 then some .low else if c = 1 then some .high else none

/-- The fault level codes (R203). -/
def faultOfCode (c : BitVec 8) : Option FaultLevel :=
  if c = 0 then some .low else if c = 1 then some .high else if c = 2 then some .hold
  else if c = 3 then some .off else none

/-- The end policy codes (R203). -/
def policyOfCode (c : BitVec 8) : Option EndPolicy :=
  if c = 0 then some .idle else if c = 1 then some .hold else none

/-- The edge select codes (R203). -/
def selectOfCode (c : BitVec 8) : Option EdgeSelect :=
  if c = 0 then some .rising else if c = 1 then some .falling else if c = 2 then some .both else none

/-- The report mode codes (R203). -/
def modeOfCode (c : BitVec 8) : Option ReportMode :=
  if c = 0 then some .each else if c = 1 then some .summary else none

/-- The enabled codes of SET_INPUT (R203). -/
def enabledOfCode (c : BitVec 8) : Option Bool :=
  if c = 0 then some false else if c = 1 then some true else none

/-- The start kinds (R203). -/
inductive StartKind where
  | atTime
  | now
  | afterEdge
  | afterEnd
deriving DecidableEq, Repr

/-- The start kind codes (R203). -/
def startKindOfCode (c : BitVec 8) : Option StartKind :=
  if c = 0 then some .atTime else if c = 1 then some .now else if c = 2 then some .afterEdge
  else if c = 3 then some .afterEnd else none

/-- The level of a segment word, bits 31:30; code 3 is invalid (R203). -/
def segmentLevel (w : BitVec 32) : Option LineLevel :=
  match (w.extractLsb' 30 2).toNat with
  | 0 => some .low
  | 1 => some .high
  | 2 => some .carrier
  | _ => none

/-- The duration of a segment word, bits 29:0 (R203). -/
def segmentDuration (w : BitVec 32) : Nat := (w.extractLsb' 0 30).toNat

/-- The first segment-count segment words; those beyond are not examined (R45). -/
def segmentWords (b : StartTrainBody) : List (BitVec 32) := b.segments.toList.take b.segmentCount.toNat

/-- The segments of an admitted train. -/
def segmentsOf (b : StartTrainBody) : List Segment :=
  (segmentWords b).map fun w => { level := (segmentLevel w).getD .low, duration := segmentDuration w }

/-- The start condition of a train, with its reference and offset (R97, R203). -/
def startOf (b : StartTrainBody) : StartCondition :=
  match startKindOfCode b.startKind with
  | some .afterEdge => .afterEdge b.reference b.edgeNumber.toNat (offsetBits b.time)
  | some .afterEnd => .afterEnd b.reference (offsetBits b.time)
  | some .now => .now
  | some .atTime => .atTime
  | none => .atTime

/-- The sizes a completion ring may have (R163, R186). -/
def crSizes : List Nat := [16, 32, 64, 128, 256, 512, 1024, 2048, 4096]

/-- The sizes the submission ring may have (R186). -/
def sqSizes : List Nat := [16, 32, 64, 128, 256, 512, 1024]

/-- CR0CFG's size, 2 to the exponent of bits 3:0 (R199). -/
def cfgSize (w : Word) : Nat := 2 ^ (w.extractLsb' 0 4).toNat

/-- CR0CFG's service level, bits 5:4 (R199). -/
def cfgLevel (w : Word) : Fin 4 := (w.extractLsb' 4 2).toFin

/-- CR0CFG's threshold, bits 14:8 (R199). -/
def cfgThreshold (w : Word) : Nat := (w.extractLsb' 8 7).toNat

/-- CR0CFG's holdoff, bits 31:16 (R199). -/
def cfgHoldoff (w : Word) : Nat := (w.extractLsb' 16 16).toNat

/-- CR0CFG's reserved bits, 7:6 and 15, are clear (R199). -/
def cfgReservedClear (w : Word) : Bool := decide (w.extractLsb' 6 2 = 0#2) && !w.getLsbD 15

end Sys2Proof.Machine
end

