-- ==== Sys2Proof/Machine/Rings.lean ====
section
/-! DEFINITION. The completion rings and their notifiers: definition, faults, host heads and record writes
(chapters 7 and 8). -/

namespace Sys2Proof.Machine

/-- A ring in service with new settings: write index 0, phase 1, host head 0 and notifier fresh; its
queue and owed count are kept (R145, R164, R165, R166, R170). -/
def Ring.define (r : Ring) (base : HostAddr) (size : Nat) (level : Fin 4) (threshold holdoff : Nat) : Ring :=
  { state := .active, base := base, size := size, writeIndex := 0, phase := true, hostHead := 0
    staged := r.staged, owed := r.owed, level := level, threshold := threshold, holdoff := holdoff
    unnotified := 0, timer := .stopped, awaiting := false }

/-- A DEFINE_RING whose change cannot be made now (R165, R166): `target` is its own target. -/
def State.ringBusy (s : State) (named target : Fin 4) (size : Nat) : Bool :=
  let r := s.ring named
  match r.state with
  | .undefined => false
  | .active =>
    !(decide (r.staged = []) && (decide (r.owed = 0) || (decide (r.owed = 1) && decide (target = named))))
      || (decide (size = 0) && decide (target = named))
  | .faulted => decide (size = 0) && !(decide (r.staged = []) && decide (r.owed = 0))

/-- What a definition finds: an UNDEFINED ring holds nothing, another keeps its account (R164, R166). -/
def Ring.kept (r : Ring) : Ring := if r.state = .undefined then Ring.undefined else r

/-- The change a DEFINE_RING makes: size 0 undefines the ring, any other defines or redefines it (R164,
R165, R166). -/
def State.defineRing (s : State) (named : Fin 4) (b : DefineRingBody) : State :=
  if b.size = 0 then s.setRing named Ring.undefined
  else s.setRing named ((s.ring named).kept.define b.base b.size.toNat (Fin.ofNat 4 b.level.toNat)
    b.threshold.toNat b.holdoff.toNat)

/-- A holdoff timer started at `now` (R171). -/
def Ring.startTimer (r : Ring) (now : Time) : HoldoffTimer :=
  if r.holdoff = 0 then .expired else .running (after now (Config.holdoffUnit * r.holdoff))

/-- A ring is full (R154). -/
def Ring.full (r : Ring) : Bool := decide ((r.writeIndex + 1) % r.size = r.hostHead)

/-- A ring's message is due (R173). -/
def Ring.messageDue (r : Ring) : Bool :=
  decide (r.state = .active) && !r.awaiting
    && (decide (r.threshold ≤ r.unnotified) || (decide (r.timer = .expired) && decide (1 ≤ r.unnotified)))

/-- A ring offers its oldest staged record (R152). -/
def Ring.offersRecord (r : Ring) : Bool :=
  decide (r.state = .active) && !decide (r.staged = []) && !r.full

/-- The notifier is told of a record written at `now` (R172). -/
def Ring.noteWrite (r : Ring) (now : Time) : Ring :=
  { r with
    unnotified := min (r.unnotified + 1) Config.shortCeiling
    timer := if r.unnotified = 0 then r.startTimer now else r.timer }

/-- The ring after its oldest record is written: the queue shortens, the index rises, and the phase flips
at a wrap (R153). -/
def Ring.wrote (r : Ring) : Ring :=
  { r with
    staged := r.staged.tail
    writeIndex := (r.writeIndex + 1) % r.size
    phase := if (r.writeIndex + 1) % r.size = 0 then !r.phase else r.phase }

/-- The notifier after its message is taken (R175). -/
def Ring.messageTaken (r : Ring) : Ring := { r with unnotified := 0, timer := .stopped, awaiting := true }

/-- An accepted host head: the places are released and the notifier re-armed (R157, R176). -/
def Ring.acceptHead (r : Ring) (v : Nat) (now : Time) : Ring :=
  { r with
    hostHead := v
    awaiting := false
    timer := if r.unnotified = 0 then .stopped else r.startTimer now }

/-- How far an index lies past another, modulo the ring's size (R157). -/
def Ring.span (r : Ring) (v : Nat) : Nat := (v + r.size - r.hostHead) % r.size

/-- The check of a host head (R157). -/
inductive HeadCheck where
  | range
  | overrun
  | accepted
deriving DecidableEq, Repr

/-- The check of a host head against the old head and the write index (R157). -/
def Ring.checkHead (r : Ring) (v : Nat) : HeadCheck :=
  if r.size ≤ v then .range
  else if r.span r.writeIndex < r.span v then .overrun
  else .accepted

/-- An expiry tick moved with device time (R9, R171). A ring that is not ACTIVE has its timer frozen
(R178, log 18). -/
def Ring.shiftTimer (r : Ring) (d : Time) : Ring :=
  match r.state, r.timer with
  | .active, .running e => { r with timer := .running (e + d) }
  | _, _ => r

/-- The ring's holdoff timer expires now (R171, R178). -/
def Ring.expiryDue (r : Ring) (now : Time) : Bool :=
  decide (r.state = .active) && decide (r.timer = .running now)

/-- Every ring changed alike. -/
def State.onRings (s : State) (f : Ring → Ring) : State := { s with rings := Vector.ofFn fun i => f (s.ring i) }

end Sys2Proof.Machine
end

