-- ==== Sys2Proof/Machine/Checks.lean ====
section
/-! DEFINITION. The fixed order of checks of the command unit (chapter 6, R126), with the conditions that
each kind's own chapter gives. -/

namespace Sys2Proof.Machine

/-! The target ring (R122) -/

/-- The ring a header names, when it is ACTIVE. -/
def State.namedActive (s : State) (h : Header) : Option (Fin 4) :=
  match ringNumber h.ring with
  | none => none
  | some i => if (s.ring i).state = .active then some i else none

/-- The target ring of a record: the named ring when it is ACTIVE, and CR0 otherwise (R122). -/
def State.target (s : State) (h : Header) : Fin 4 := (s.namedActive h).getD 0

/-- The ring check: what it fails with, if it fails (R122). -/
def State.ringRefusal (s : State) (h : Header) : Option Status :=
  match ringNumber h.ring with
  | none => some .noRing
  | some i => match (s.ring i).state with
    | .active => none
    | .undefined => some .noRing
    | .faulted => some .ringFault

/-! The field check (R127 and each kind's rule): true when the fields are in range -/

/-- The conditions on every known kind: reserved bytes zero, flags within those the kind defines (R127). -/
def Header.fieldsOk (h : Header) (defined : BitVec 8) : Bool :=
  decide (h.reserved = 0#16) && h.flagsWithin defined

/-- DEFINE_RING (R163). -/
def defineRingOk (h : Header) (b : DefineRingBody) : Bool :=
  Header.fieldsOk h 0 && decide (1 ≤ b.number.toNat ∧ b.number.toNat ≤ 3)
    && (decide (b.size = 0) ||
      (decide (b.size.toNat ∈ crSizes) && decide (b.base.toNat % 64 = 0) && decide (b.level.toNat ≤ 3)
        && decide (1 ≤ b.threshold.toNat ∧ b.threshold.toNat ≤ 64) && decide (b.holdoff.toNat ≤ 65535)))

/-- A carrier pair: both unset, or the high width below the period (R24). -/
def carrierPairOk (high period : Nat) : Bool :=
  (decide (high = 0) && decide (period = 0)) || (decide (0 < high) && decide (high < period))

/-- SET_OUTPUT (R24). -/
def setOutputOk (h : Header) (b : SetOutputBody) : Bool :=
  Header.fieldsOk h 0 && h.outLine.isSome && (driveOfCode b.drive).isSome && (levelOfCode b.idle).isSome
    && (faultOfCode b.fault).isSome && carrierPairOk b.highWidth.toNat b.period.toNat

/-- SET_INPUT (R75). -/
def setInputOk (h : Header) (b : SetInputBody) : Bool :=
  Header.fieldsOk h 0 && h.inLine.isSome && (enabledOfCode b.enabled).isSome
    && decide (b.filterLength.toNat ≤ 255)

/-- A segment word has a level, and lasts at least 4 ticks (R45). -/
def segmentOk (w : BitVec 32) : Bool := (segmentLevel w).isSome && decide (4 ≤ segmentDuration w)

/-- The start kind's conditions on the time field, edge number and reference tag (R45). -/
def startFieldsOk (b : StartTrainBody) : Bool :=
  match startKindOfCode b.startKind with
  | none => false
  | some .atTime => upperClear 48 b.time
  | some .now => decide (b.time = 0)
  | some .afterEdge => upperClear 32 b.time && decide (Config.admissionLead ≤ offsetBits b.time)
      && decide (b.edgeNumber ≠ 0) && decide (b.reference ≠ 0)
  | some .afterEnd => upperClear 32 b.time && decide (b.reference ≠ 0)

/-- A CARRIER segment needs the line's carrier set (R32). -/
def State.carrierOk (s : State) (h : Header) (b : StartTrainBody) : Bool :=
  match h.outLine with
  | none => false
  | some l => (s.line l).carrierSet || !(segmentWords b).any fun w => decide (segmentLevel w = some .carrier)

/-- START_TRAIN (R45); it defines late-ok. -/
def State.startTrainOk (s : State) (h : Header) (b : StartTrainBody) : Bool :=
  Header.fieldsOk h 1 && decide (h.tag ≠ 0) && h.outLine.isSome
    && decide (1 ≤ b.segmentCount.toNat ∧ b.segmentCount.toNat ≤ 8) && (segmentWords b).all segmentOk
    && (policyOfCode b.endPolicy).isSome && startFieldsOk b && s.carrierOk h b

/-- An open time lies ahead: non-zero and in the future (R82). -/
def State.opensLater (s : State) (opens : Time) : Bool := decide (opens ≠ 0) && isFuture s.deviceTime opens

/-- The effective open time of an ARM_CAPTURE (R82). -/
def State.effectiveOpen (s : State) (opens : Time) : Time :=
  if s.opensLater opens = true then opens else s.deviceTime

/-- ARM_CAPTURE (R81, R82). -/
def State.armCaptureOk (s : State) (h : Header) (b : ArmCaptureBody) : Bool :=
  Header.fieldsOk h 0 && decide (h.tag ≠ 0) && h.inLine.isSome && (selectOfCode b.edgeSelect).isSome
    && (modeOfCode b.reportMode).isSome && decide (b.reservedA = 0 ∧ b.reservedB = 0)
    && upperClear 48 b.openTime && upperClear 48 b.closeTime
    && (decide (timeBits b.closeTime = 0)
      || isFuture (s.effectiveOpen (timeBits b.openTime)) (timeBits b.closeTime))

/-- CANCEL (R135); it defines cascade and the cancel mode. -/
def cancelOk (h : Header) : Bool :=
  Header.fieldsOk h 0x0E && decide (h.tag ≠ 0) && decide (h.cancelMode ≤ 1)

/-- FENCE (R137). -/
def fenceOk (h : Header) (timeout : BitVec 64) : Bool :=
  Header.fieldsOk h 0 && upperClear 32 timeout && decide (offsetBits timeout ≠ 0)

/-- ADJUST_TIME (R8). -/
def adjustTimeOk (h : Header) (value : BitVec 64) : Bool := Header.fieldsOk h 0 && upperClear 48 value

/-! The checks that claim resources -/

/-- The line check of a START_TRAIN (R33). -/
def State.lineRefusal (s : State) (l : Line) (start : StartCondition) : Option Status :=
  if l.drive = .off then some .lineOff
  else match l.owner with
    | none => none
    | some o =>
      if l.successor = none ∧ ((s.train o).any fun t => start.onEnd t.tag) = true then none
      else some .lineBusy

/-- The referenced-tag check of a START_TRAIN (R98, R99). -/
def State.referenceRefusal (s : State) (start : StartCondition) : Option Status :=
  match start with
  | .atTime => none
  | .now => none
  | .afterEdge g k _ => match s.lookup g with
    | some (.capture i) => match s.capture i with
      | some c => if c.edgeLimit ≠ 0 ∧ c.edgeLimit < k then some .badField else none
      | none => some .noSuchTag
    | some (.train _) => some .noSuchTag
    | none => some .noSuchTag
  | .afterEnd g _ => match s.lookup g with
    | some (.train _) => none
    | some (.capture _) => some .noSuchTag
    | none => some .noSuchTag

/-- The trigger check (R100). -/
def State.triggerPassed (s : State) (start : StartCondition) : Bool :=
  match start with
  | .afterEdge g k _ => match s.lookup g with
    | some (.capture i) => (s.capture i).any fun c => decide (k ≤ c.taken)
    | some (.train _) => false
    | none => false
  | .atTime => false
  | .now => false
  | .afterEnd _ _ => false

/-- An AT start time leaves the admission lead (R6). -/
def leadOk (now start : Time) : Bool :=
  decide (Config.admissionLead ≤ start.ahead now) && decide (start.ahead now ≤ Config.horizon)

/-- The start-time check (R47). -/
def State.startPast (s : State) (h : Header) (b : StartTrainBody) : Bool :=
  decide (startOf b = .atTime) && !leadOk s.deviceTime (timeBits b.time) && !h.lateOk

/-- A live capture names the input line (R76). -/
def State.inputBusy (s : State) (l : Fin 8) : Bool :=
  (List.finRange 16).any fun i => (s.capture i).any fun c => decide (c.line = l)

/-- A train or capture is live (R8). -/
def State.anyLive (s : State) : Bool :=
  ((List.finRange 32).any fun i => (s.train i).isSome) || ((List.finRange 16).any fun i => (s.capture i).isSome)

/-- The status of the first check in a list that fails. -/
def firstRefusal : List (Option Status) → Option Status
  | [] => none
  | some st :: _ => some st
  | none :: rest => firstRefusal rest

/-- A check that fails with one status. -/
def refuseIf (fails : Bool) (st : Status) : Option Status := if fails then some st else none

/-- The checks of a record in their fixed order, with the execution test last: none when it passes, and
otherwise the status of the first that fails (R126). `target` is the record's target ring. -/
def State.check (s : State) (target : Fin 4) : Submission → Option Status
  | .unknown _ _ => some .badKind
  | .nop h => firstRefusal [refuseIf (!Header.fieldsOk h 0) .badField, s.ringRefusal h]
  | .readTime h => firstRefusal [refuseIf (!Header.fieldsOk h 0) .badField, s.ringRefusal h]
  | .defineRing h b => firstRefusal
      [refuseIf (!defineRingOk h b) .badField, s.ringRefusal h,
        refuseIf (s.ringBusy (Fin.ofNat 4 b.number.toNat) target b.size.toNat) .ringBusy]
  | .setOutput h b => firstRefusal
      [refuseIf (!setOutputOk h b) .badField, s.ringRefusal h,
        refuseIf (h.outLine.any fun l => (s.line l).owner.isSome) .lineBusy]
  | .setInput h b => firstRefusal
      [refuseIf (!setInputOk h b) .badField, s.ringRefusal h,
        refuseIf (h.inLine.any fun l => s.inputBusy l) .lineBusy]
  | .startTrain h b => firstRefusal
      [refuseIf (!s.startTrainOk h b) .badField, s.ringRefusal h,
        refuseIf (s.lookup h.tag).isSome .tagInUse, refuseIf s.freeTrain.isNone .noSlot,
        h.outLine.bind fun l => s.lineRefusal (s.line l) (startOf b),
        s.referenceRefusal (startOf b), refuseIf (s.triggerPassed (startOf b)) .triggerPassed,
        refuseIf (s.startPast h b) .startPast]
  | .armCapture h b => firstRefusal
      [refuseIf (!s.armCaptureOk h b) .badField, s.ringRefusal h,
        refuseIf (s.lookup h.tag).isSome .tagInUse, refuseIf s.freeCapture.isNone .noSlot,
        refuseIf (h.inLine.any fun l => !(s.input l).enabled) .lineOff]
  | .cancel h => firstRefusal
      [refuseIf (!cancelOk h) .badField, s.ringRefusal h, refuseIf (s.lookup h.tag).isNone .noSuchTag]
  | .fence h timeout => firstRefusal [refuseIf (!fenceOk h timeout) .badField, s.ringRefusal h]
  | .adjustTime h value => firstRefusal
      [refuseIf (!adjustTimeOk h value) .badField, s.ringRefusal h, refuseIf s.anyLive .busy]

end Sys2Proof.Machine
end

