-- ==== Sys2Proof/Machine/Commands.lean ====
section
/-! DEFINITION. The command unit: reservation, processing, acceptance and refusal of submission records
(chapter 6), with what each kind does when it is accepted. -/

namespace Sys2Proof.Machine

/-! CMD_DONE (R128, R129) -/

/-- The CMD_DONE record (R129). -/
def State.cmdDoneRecord (s : State) (st : Status) (t : Tag) (returned : Time) (count : Nat) : Completion :=
  { s.blankRecord .cmdDone st t with mask := s.faultMask, time2 := returned, count := count }

/-- A CMD_DONE is staged in the command's own place on its target ring (R129, R149). -/
def State.stageCmdDone (s : State) (target : Fin 4) (st : Status) (t : Tag) (returned : Time) (count : Nat) :
    State :=
  s.stageFinal target (s.cmdDoneRecord st t returned count)

/-! What the accepted kinds do -/

/-- SET_OUTPUT (R26). -/
def State.doSetOutput (s : State) (h : Header) (b : SetOutputBody) : State :=
  match h.outLine, driveOfCode b.drive, levelOfCode b.idle, faultOfCode b.fault with
  | some l, some d, some v, some f =>
    s.setLine l ((s.line l).set d v f b.highWidth.toNat b.period.toNat)
  | _, _, _, _ => s

/-- An input line set anew: enabled, its filtered level takes its raw level; disabled, it keeps its
filtered level; a candidate is dropped in both (R77). -/
def InputLine.set (l : InputLine) (enabled : Bool) (filterLength : Nat) : InputLine :=
  { l with
    enabled := enabled
    filterLength := filterLength
    candidate := none
    filtered := if enabled then l.raw else l.filtered }

/-- SET_INPUT, on the raw level of this tick; the filter acts from the next tick (R77). -/
def State.doSetInput (s : State) (h : Header) (b : SetInputBody) : State :=
  match h.inLine, enabledOfCode b.enabled with
  | some l, some e => s.setInput l ((s.settled l).set e b.filterLength.toNat)
  | _, _ => s

/-- The start time of an admitted AT or NOW train, and whether it is late; none for a train that waits
(R47, R48). -/
def State.startTimeOf (s : State) (b : StartTrainBody) : Option (Time × Bool) :=
  match startOf b with
  | .atTime =>
    if leadOk s.deviceTime (timeBits b.time) then some (timeBits b.time, false)
    else some (after s.deviceTime Config.admissionLead, true)
  | .now => some (after s.deviceTime Config.admissionLead, false)
  | .afterEdge _ _ _ => none
  | .afterEnd _ _ => none

/-- The record of an admitted train (R42, R48). -/
def State.newTrain (s : State) (h : Header) (b : StartTrainBody) (l : Fin 16) (ring : Fin 4) : Train :=
  { state := if (s.startTimeOf b).isSome then .armed else .waiting
    tag := h.tag, line := l, ring := ring, segments := segmentsOf b, repeatCount := b.repeatCount.toNat
    repsDone := 0, index := 0, start := startOf b
    endPolicy := (policyOfCode b.endPolicy).getD .idle
    lateOk := h.lateOk, late := ((s.startTimeOf b).map (·.2)).getD false
    startTime := (s.startTimeOf b).map (·.1), stopKind := .none }

/-- START_TRAIN is admitted into the lowest FREE slot: on the list, in the tag map, its line claimed, and
ARMED with its START or WAITING (R34, R48, R101). -/
def State.admitTrain (s : State) (h : Header) (b : StartTrainBody) (ring : Fin 4) : State :=
  match s.freeTrain, h.outLine with
  | some i, some l =>
    let s1 := (((s.setTrain i (some (s.newTrain h b l ring))).join (.train i)).addTag h.tag (.train i)).setLine
      l ((s.line l).claim i)
    match s.startTimeOf b with
    | some (due, _) => s1.insert (.train i) .start due
    | none => s1
  | _, _ => s

/-- The record of an admitted capture (R80, R84). -/
def State.newCapture (s : State) (h : Header) (b : ArmCaptureBody) (l : Fin 8) (ring : Fin 4) : Capture :=
  { state := if s.opensLater (timeBits b.openTime) then .pending else .opened
    tag := h.tag, line := l, ring := ring
    edgeSelect := (selectOfCode b.edgeSelect).getD .both
    reportMode := (modeOfCode b.reportMode).getD .each
    openTime := timeBits b.openTime, effectiveOpen := s.effectiveOpen (timeBits b.openTime)
    closeTime := timeBits b.closeTime, edgeLimit := b.edgeLimit.toNat, taken := 0, dropped := 0
    firstStamp := none
    lateOpen := decide (timeBits b.openTime ≠ 0) && !s.opensLater (timeBits b.openTime) }

/-- ARM_CAPTURE is admitted into the lowest FREE slot: PENDING with its OPEN, or OPEN with its CLOSE
when it has a close time (R84). -/
def State.admitCapture (s : State) (h : Header) (b : ArmCaptureBody) (ring : Fin 4) : State :=
  match s.freeCapture, h.inLine with
  | some i, some l =>
    let c := s.newCapture h b l ring
    let s1 := ((s.setCapture i (some c)).join (.capture i)).addTag h.tag (.capture i)
    match c.state with
    | .pending => s1.insert (.capture i) .openWindow c.effectiveOpen
    | .opened => s1.insertClose i c
  | _, _ => s

/-- CANCEL acts on the work its tag names, by its mode for a train (R62 to R65, R93, R135). -/
def State.doCancel (s : State) (h : Header) : State :=
  match s.lookup h.tag with
  | some (.train i) => if h.cancelMode = 0 then s.cancelNow i h.cascade else s.cancelAtPeriodEnd i h.cascade
  | some (.capture i) => s.endCapture i .cancelled
  | none => s

/-- FENCE takes in every live work: with none it ends OK at once, else it waits with its TIMEOUT and
holds the stream (R137). -/
def State.doFence (s : State) (h : Header) (timeout : BitVec 64) (ring : Fin 4) : State :=
  let f : Fence := { count := s.tagMap.length, ring := ring, acceptedAt := s.deviceTime, tag := h.tag }
  if f.count = 0 then
    s.stageFinal ring { s.blankRecord .fenceEnd .ok h.tag with time2 := s.deviceTime }
  else
    { (s.join .fence).insert .fence .timeout (after s.deviceTime (offsetBits timeout)) with fetch := .fenced f }

/-- A candidate's first-seen tick moved with device time (R9). -/
def InputLine.shift (l : InputLine) (d : Time) : InputLine :=
  { l with candidate := l.candidate.map fun c => { c with firstSeen := c.firstSeen + d } }

/-- ADJUST_TIME sets device time, and moves first-seen ticks and running holdoff expiries by the same
difference; the next tick reads the value plus one (R9). -/
def State.adjust (s : State) (v : Time) : State :=
  { s with
    deviceTime := v
    timeRestart := false
    inputs := Vector.ofFn fun i => (s.input i).shift (v - s.deviceTime)
    rings := Vector.ofFn fun i => (s.ring i).shiftTimer (v - s.deviceTime) }

/-- An accepted record takes its admission number and is carried out (R130, R132 to R137). The kinds that
are not admitted as a work are answered with CMD_DONE OK after what they do. -/
def State.accept (s : State) (target : Fin 4) (returned : Time) (c : Submission) : State :=
  let n := s.admissionCounter.toNat
  let s1 := { s with admissionCounter := s.admissionCounter + 1 }
  match c with
  | .nop h => s1.stageCmdDone target .ok h.tag returned n
  | .readTime h => s1.stageCmdDone target .ok h.tag returned n
  | .defineRing h b =>
    (s1.defineRing (Fin.ofNat 4 b.number.toNat) b).stageCmdDone target .ok h.tag returned n
  | .setOutput h b => (s1.doSetOutput h b).stageCmdDone target .ok h.tag returned n
  | .setInput h b => (s1.doSetInput h b).stageCmdDone target .ok h.tag returned n
  | .startTrain h b => s1.admitTrain h b target
  | .armCapture h b => s1.admitCapture h b target
  | .cancel h => (s1.doCancel h).stageCmdDone target .ok h.tag returned n
  | .fence h timeout => s1.doFence h timeout target
  | .adjustTime h v => (s1.adjust (timeBits v)).stageCmdDone target .ok h.tag returned n
  | .unknown _ _ => s

/-! Processing (R119, R122 to R129) -/

/-- A record that holds its place is checked, and refused or carried out; the unit is IDLE, or FENCED by
an accepted FENCE, and issues the next read (R117, R126, R128). -/
def State.process (s : State) (target : Fin 4) (returned : Time) (c : Submission) : State :=
  let s1 := { s with fetch := .idle }
  (match s1.check target c with
    | some st => s1.stageCmdDone target st c.header.tag returned 0
    | none => s1.accept target returned c).issueRead

/-- A held record answered in a quiesce drain: neither checked nor carried out (R125). -/
def State.answerAborted (s : State) (target : Fin 4) (returned : Time) (c : Submission) : State :=
  ({ s with fetch := .idle } : State).stageCmdDone target .aborted c.header.tag returned 0

/-- The place for a record's final is asked on its target ring. Granted, the record is processed, or
answered ABORTED in QUIESCING; not granted, it is held STALLED (R123, R124, R125, R148). -/
def State.tryPlace (s : State) (returned : Time) (c : Submission) : State :=
  let i := s.target c.header
  if (s.ring i).hasPlace then
    if s.device = .running then (s.reserve i).process i returned c
    else (s.reserve i).answerAborted i returned c
  else { s with fetch := .stalled c returned }

/-- A held record tries again for its place (R124). -/
def State.retry (s : State) : State :=
  match s.fetch with
  | .stalled c returned => s.tryPlace returned c
  | _ => s

/-- The data of a read returns. The outstanding read's is taken in RUNNING: head advances and the record
asks for its place (R119). A discarded read's is accepted and dropped (R120). -/
def State.readReturned (s : State) (of : ReadId) (c : Submission) : State :=
  match of with
  | .discarded => { s with discardedReads := s.discardedReads - 1 }
  | .outstanding =>
    match s.fetch with
    | .reading _ =>
      if s.device = .running then
        ({ s with head := (s.head + 1) % s.sqSize.toNat } : State).tryPlace s.deviceTime c
      else s
    | _ => s

end Sys2Proof.Machine
end

