-- ==== Sys2Proof/Machine/Control.lean ====
section
/-! DEFINITION. The control block: enable, quiesce, drain and limit, halt and resets (chapter 9), with the
closing messages that a return to OFF marks (chapter 8). -/

namespace Sys2Proof.Machine

/-! Halt (R194) -/

/-- The last cause that a fatal cause leaves (R184). -/
def FatalCause.cause : FatalCause → Cause
  | .sqTailRange => .sqTailRange
  | .sqReadError => .sqReadError
  | .cr0HeadRange => .cr0HeadRange
  | .cr0HeadOverrun => .cr0HeadOverrun

/-- Every work, entry, tag, record and reservation dropped, and the command unit IDLE, with an
outstanding read left to be dropped on the link (R19, R72, R96, R143, R145). -/
def State.dropAll (s : State) : State :=
  { s.discardRead with
    calendar := [], admission := [], tagMap := [], fetch := .idle
    trains := Vector.replicate 32 none
    captures := Vector.replicate 16 none
    rings := Vector.replicate 4 Ring.undefined }

/-- Entry to HALTED: all work dropped without a record, the lines at their fault levels, and one halt
message held for vector 0 in place of any other (R41, R181, R183, R194, log 17). -/
def State.halt (s : State) (c : FatalCause) : State :=
  { s.dropAll.onLines Line.halt with
    device := .halted, lastCause := c.cause, discardedCount := 0, commandDropped := false
    quiesceElapsed := 0, haltMessage := true, closing := [] }

/-! The return from QUIESCING to OFF (R182, R191, R192) -/

/-- A closing message at its place: higher service level first, and at equal levels the lower ring number
(R182). One of an earlier return to OFF gives way to a later one by the same order, and stands first where the
ring and level are the same (DESIGN CHOICE, log 30). -/
def placeClosing (m : ClosingMessage) : List ClosingMessage → List ClosingMessage
  | [] => [m]
  | k :: ks =>
    if k.level < m.level ∨ (k.level = m.level ∧ m.ring < k.ring) then m :: k :: ks
    else k :: placeClosing m ks

/-- A closing message is marked for each ACTIVE ring with records not announced (R182). Those still held from
an earlier return to OFF are kept, a second one of the same ring among them, and all are merged into one order
(DESIGN CHOICE, log 30). -/
def State.markClosing (s : State) : List ClosingMessage :=
  (List.finRange 4).foldl (fun ms i =>
    if (s.ring i).state = .active ∧ 1 ≤ (s.ring i).unnotified then
      placeClosing { level := (s.ring i).level, ring := i } ms
    else ms) s.closing

/-- The device returns to OFF with a result: closing messages marked, all rings UNDEFINED, the command
unit IDLE (R142, R145, R182, R184). -/
def State.toOff (s : State) (c : Cause) (count : Nat) (dropped : Bool) : State :=
  { s with
    closing := s.markClosing
    rings := Vector.replicate 4 Ring.undefined
    fetch := .idle
    device := .off, lastCause := c, discardedCount := count, commandDropped := dropped, quiesceElapsed := 0 }

/-- The records staged on all rings (R192). -/
def State.stagedTotal (s : State) : Nat := ((List.finRange 4).map fun i => (s.ring i).staged.length).sum

/-- The command unit holds a record (R191). -/
def State.holdsRecord (s : State) : Bool :=
  match s.fetch with
  | .stalled _ _ => true
  | _ => false

/-- The drain is complete: every staging queue is empty and no record is held (R191). -/
def State.drained (s : State) : Bool := decide (s.stagedTotal = 0) && !s.holdsRecord

/-- The drain is tested: complete, the device returns to OFF with QUIESCED (R191). -/
def State.testDrain (s : State) : State :=
  if s.device = .quiescing ∧ s.drained = true then s.toOff .quiesced 0 false else s

/-- The quiesce limit: staged records are discarded and counted, and a held record is dropped (R192). -/
def State.endLimit (s : State) : State := s.toOff .quiesceTimeout s.stagedTotal s.holdsRecord

/-! Quiesce (R189) -/

/-- The order of the sweep: works with an entry in calendar order, then the others in the order of the
admission list (R18). -/
def State.sweepOrder (s : State) : List Owner :=
  (s.calendar.map (·.owner)) ++ s.admission.filter fun o => !decide (o ∈ s.calendar.map (·.owner))

/-- A waiting fence ends ABORTED with the count it then holds (R141). -/
def State.abortFence (s : State) : State :=
  match s.fetch with
  | .fenced f => s.endFence f .aborted
  | _ => s

/-- One work's turn of the sweep (R18, R71, R95, R141). -/
def State.abort (s : State) : Owner → State
  | .train i => s.abortTrain i
  | .capture i => s.abortCapture i
  | .fence => s.abortFence

/-- Entry to QUIESCING: an outstanding read is discarded, every live work ends ABORTED, the limit starts,
and the drain is tested (R142, R189, R191). -/
def State.beginQuiesce (s : State) : State :=
  let s1 := { s.discardRead with device := .quiescing, quiesceElapsed := 0 }
  (s1.sweepOrder.foldl State.abort s1).testDrain

/-! Enable (R186, R187) -/

/-- CR0's base, from its two registers (R199). -/
def State.cr0Base (s : State) : HostAddr := s.cr0BaseHi ++ s.cr0BaseLo

/-- The area of `n` bytes from `a` ends within the 64-bit address space (R186). -/
def areaFits (a n : Nat) : Bool := decide (a + n ≤ 2 ^ 64)

/-- The areas of `n` bytes from `a` and of `m` bytes from `b` share no byte (R186). -/
def areasApart (a n b m : Nat) : Bool := decide (a + n ≤ b) || decide (b + m ≤ a)

/-- The configuration that the registers hold is valid (R186). -/
def State.configValid (s : State) : Bool :=
  decide (s.sqSize.toNat ∈ sqSizes) && decide (s.sqBase.toNat % 64 = 0)
    && decide (cfgSize s.cr0Cfg ∈ crSizes) && decide (s.cr0Base.toNat % 64 = 0)
    && decide (1 ≤ cfgThreshold s.cr0Cfg ∧ cfgThreshold s.cr0Cfg ≤ 64) && cfgReservedClear s.cr0Cfg
    && areaFits s.sqBase.toNat (64 * s.sqSize.toNat) && areaFits s.cr0Base.toNat (32 * cfgSize s.cr0Cfg)
    && areasApart s.sqBase.toNat (64 * s.sqSize.toNat) s.cr0Base.toNat (32 * cfgSize s.cr0Cfg)

/-- CR0 as the enable makes it from its registers (R145, R170, R187). -/
def State.cr0FromRegisters (s : State) : Ring :=
  Ring.undefined.define s.cr0Base (cfgSize s.cr0Cfg) (cfgLevel s.cr0Cfg) (cfgThreshold s.cr0Cfg)
    (cfgHoldoff s.cr0Cfg)

/-- The enable of a valid configuration (R116, R187). -/
def State.enterRunning (s : State) : State :=
  { s.setRing 0 s.cr0FromRegisters with
    device := .running, lastCause := .none, discardedCount := 0, commandDropped := false
    head := 0, tail := 0 }

/-- The enable check in OFF (R186, R187). -/
def State.tryEnable (s : State) : State :=
  if s.configValid then s.enterRunning else { s with lastCause := .configInvalid }

/-! Resets (R196, R197) -/

/-- Every block and register at its reset value; the link's configuration space, what the link has taken,
the pins and the clock are as they were (R196). The fields of the model's own are kept. -/
def State.resetBlocks (s : State) : State :=
  { s.discardRead with
    deviceTime := 0, timeRestart := true, timeCapture := 0
    calendar := [], admission := [], tagMap := [], fetch := .idle
    trains := Vector.replicate 32 none
    captures := Vector.replicate 16 none
    lines := Vector.replicate 16 Line.reset
    inputs := Vector.ofFn fun i =>
      { InputLine.reset with pin := (s.input i).pin, raw := (s.input i).raw, sampled := (s.input i).sampled }
    head := 0, tail := 0, admissionCounter := 0
    rings := Vector.replicate 4 Ring.undefined
    haltMessage := false, closing := []
    device := .off, lastCause := .none, discardedCount := 0, commandDropped := false, quiesceElapsed := 0
    sqBaseLo := 0, sqBaseHi := 0, sqSize := 0, cr0BaseLo := 0, cr0BaseHi := 0, cr0Cfg := 0 }

/-- The link's configuration space at its own reset values, and what the host interface holds dropped
(R180, R197, logs 9 and 10). -/
def State.resetLink (s : State) : State :=
  { s with
    busMastering := false, msiEnabled := false, vectorsEnabled := 1
    vectors := Vector.replicate 4 MsiVector.reset
    heldEvents := [] }

/-- A power-on or host-link reset: the part in its soft-reset state, the link reset, and both held until
the release (R3, R197). -/
def State.hardReset (s : State) : State := { s.resetBlocks.resetLink with resetHeld := true }

/-- A CTRL write (R185). -/
def State.writeCtrl (s : State) (enable softReset : Bool) : State :=
  if softReset then s.resetBlocks
  else match s.device, enable with
    | .off, true => s.tryEnable
    | .off, false => s
    | .running, true => s
    | .running, false => s.beginQuiesce
    | .quiescing, _ => s
    | .halted, _ => s

end Sys2Proof.Machine
end

