-- ==== Sys2Proof/Machine/Arbiter.lean ====
section
/-! DEFINITION. The outbound arbiter and the interrupt messages (chapter 8), with the record writes of
chapter 7. -/

namespace Sys2Proof.Machine

/-- The vector of a ring's message: the ring's number modulo the vectors enabled (R180). -/
def State.vectorOf (s : State) (i : Fin 4) : Fin 4 := Fin.ofNat 4 (i.val % s.vectorsEnabled)

/-- A write is handed to the host link, which keeps the order (R180). -/
def State.handOver (s : State) (w : PostedWrite) : State := { s with linkOut := s.linkOut ++ [w] }

/-- Replace an interrupt vector of the link's configuration space. -/
def State.setVector (s : State) (v : Fin 4) (m : MsiVector) : State := { s with vectors := s.vectors.set v m }

/-- The message of a vector, with the address and data that the configuration space holds at the send
(R180). -/
def State.message (s : State) (v : Fin 4) : PostedWrite := .message v s.vectors[v].address s.vectors[v].data

/-- A message taken for a ring: discarded when messages are disabled, held when its vector is masked, at
most one a vector, and else sent (R180). Where messages are disabled and the vector is masked too, it is
discarded (DESIGN CHOICE, log 27). -/
def State.sendMessage (s : State) (i : Fin 4) : State :=
  let v := s.vectorOf i
  if s.msiEnabled = false then s
  else if s.vectors[v].masked then s.setVector v { s.vectors[v] with held := true }
  else s.handOver (s.message v)

/-- The oldest staged record of a ring is written: handed to the link with the ring's phase at its place,
and the notifier told (R153, R172). The address is a sum modulo 2^64 (DESIGN CHOICE, log 28, for an area of
CR1 to CR3 that runs past the top of the address space). -/
def State.writeRecord (s : State) (i : Fin 4) : State :=
  let r := s.ring i
  match r.staged with
  | [] => s
  | c :: _ =>
    (s.setRing i (r.wrote.noteWrite s.deviceTime)).handOver
      (.record (r.base + BitVec.ofNat 64 (32 * r.writeIndex)) (c.bytes r.phase))

/-- A ring's candidate at the arbiter: its due message, or else its oldest record (R174, R179). -/
def Ring.hasCandidate (r : Ring) : Bool := r.messageDue || r.offersRecord

/-- The ring the arbiter serves: the highest service level, and of equal levels the lowest number (R179). -/
def State.servedRing (s : State) : Option (Fin 4) :=
  (List.finRange 4).foldl (fun best i =>
    if (s.ring i).hasCandidate then
      match best with
      | none => some i
      | some j => if (s.ring j).level < (s.ring i).level then some i else some j
    else best) none

/-- The arbiter takes a ring's candidate. A write on the ring may give a held record its place, and may
complete a quiesce drain (R124, R125, R174, R175, R191). -/
def State.serveRing (s : State) (i : Fin 4) : State :=
  if (s.ring i).messageDue then (s.setRing i (s.ring i).messageTaken).sendMessage i
  else ((s.writeRecord i).retry).testDrain

/-- One choice of the arbiter: the halt message, then the closing messages in their order, then the rings
(R179, R181, R182). -/
def State.chooseWrite (s : State) : State :=
  if s.haltMessage then ({ s with haltMessage := false } : State).sendMessage 0
  else match s.closing with
    | m :: rest => ({ s with closing := rest } : State).sendMessage m.ring
    | [] => match s.servedRing with
      | none => s
      | some i => s.serveRing i

/-- The host link can accept a posted write, which it does only while bus mastering is enabled (R179). -/
def State.writeReady (s : State) : State := if s.busMastering then s.chooseWrite else s

/-- A held message whose vector is not masked leaves the host interface when the link takes the part's
writes: sent, or discarded when messages are disabled (R180, log 12). -/
def State.releaseMessage (s : State) (v : Fin 4) : State :=
  if s.busMastering = true ∧ s.vectors[v].held = true ∧ s.vectors[v].masked = false then
    let t := s.setVector v { s.vectors[v] with held := false }
    if s.msiEnabled then t.handOver (s.message v) else t
  else s

/-- The host masks or unmasks a vector. -/
def State.setMask (s : State) (v : Fin 4) (masked : Bool) : State :=
  s.setVector v { s.vectors[v] with masked := masked }

/-- The host's setting of the message-signalled interrupts (R180, R197, log 11). -/
def State.setMsi (s : State) (m : MsiSetup) : State :=
  { s with
    msiEnabled := m.enabled
    vectorsEnabled := m.vectors
    vectors := Vector.ofFn fun i => { s.vectors[i] with address := m.address[i], data := m.data[i] } }

/-- Bus mastering is enabled: the host's setting of the messages is taken with it, messages held on
unmasked vectors leave, and a read that is due is issued, while the clock runs (R117, R179, logs 11,
12 and 19). Several such messages leave in the order of their vectors, 0 first (DESIGN CHOICE, log 29). -/
def State.enableMastering (s : State) (msi : Option MsiSetup) : State :=
  let s1 := { (match msi with | some m => s.setMsi m | none => s) with busMastering := true }
  let s2 := (List.finRange 4).foldl State.releaseMessage s1
  if s2.refclk = .running then s2.issueRead else s2

end Sys2Proof.Machine
end

