-- ==== Sys2Proof/Machine/Window.lean ====
section
/-! DEFINITION. The register window (chapter 10): reads and writes by offset, with SQTAIL (R118) and
CRHEAD (R156 to R161). -/

namespace Sys2Proof.Machine

/-- An SQTAIL write, taken by the device state; the value is compared as a whole number (R118, R199). -/
def State.writeSqTail (s : State) (v : Word) : State :=
  match s.device with
  | .off => s
  | .halted => s
  | .running =>
    if v.toNat < s.sqSize.toNat then ({ s with tail := v.toNat } : State).issueRead else s.halt .sqTailRange
  | .quiescing => if v.toNat < s.sqSize.toNat then { s with tail := v.toNat } else s.halt .sqTailRange

/-- A failed host head: fatal for CR0, and a FAULTED ring otherwise, where a record held for that ring
tries CR0 at once (R124, R159, R161). -/
def State.failHead (s : State) (i : Fin 4) (c : FatalCause) : State :=
  if i = 0 then s.halt c else (s.setRing i { s.ring i with state := .faulted }).retry

/-- A CRHEAD write to an ACTIVE ring in RUNNING or QUIESCING is checked, and ignored otherwise (R156,
R157). -/
def State.writeCrHead (s : State) (i : Fin 4) (v : Word) : State :=
  if (s.device = .running ∨ s.device = .quiescing) ∧ (s.ring i).state = .active then
    match (s.ring i).checkHead v.toNat with
    | .range => s.failHead i .cr0HeadRange
    | .overrun => s.failHead i .cr0HeadOverrun
    | .accepted => s.setRing i ((s.ring i).acceptHead v.toNat s.deviceTime)
  else s

/-- A 32-bit write at an offset of the window: the configuration registers take writes in OFF only, CTRL,
SQTAIL and CRHEAD by their own rules, and every other offset ignores them (R186, R199). -/
def State.writeWord (s : State) (offset : Nat) (v : Word) : State :=
  match offset with
  | 0x04 => s.writeCtrl (v.getLsbD 0) (v.getLsbD 1)
  | 0x18 => if s.device = .off then { s with sqBaseLo := v } else s
  | 0x1C => if s.device = .off then { s with sqBaseHi := v } else s
  | 0x20 => if s.device = .off then { s with sqSize := v } else s
  | 0x24 => s.writeSqTail v
  | 0x28 => if s.device = .off then { s with cr0BaseLo := v } else s
  | 0x2C => if s.device = .off then { s with cr0BaseHi := v } else s
  | 0x30 => if s.device = .off then { s with cr0Cfg := v } else s
  | 0x40 => s.writeCrHead 0 v
  | 0x44 => s.writeCrHead 1 v
  | 0x48 => s.writeCrHead 2 v
  | 0x4C => s.writeCrHead 3 v
  | _ => s

/-- A register write of any width (R199). -/
def State.writeWindow (s : State) (offset : BitVec 8) (w : RegisterWrite) : State :=
  match w with
  | .narrow => s
  | .word v => s.writeWord offset.toNat v
  | .pair v => (s.writeWord offset.toNat (v.extractLsb' 0 32)).writeWord (offset.toNat + 4) (v.extractLsb' 32 32)

/-- The value a read of an offset returns (R199, R200, R201); 0 for an offset not in the table. TIME_LO
returns the low bits of the capture that the same read takes, which is device time. -/
def State.readRegister (s : State) (offset : Nat) : Word :=
  match offset with
  | 0x00 => Config.identity
  | 0x04 => s.ctrlWord
  | 0x08 => s.statWord
  | 0x0C => s.deviceTime.extractLsb' 0 32
  | 0x10 => (s.timeCapture.extractLsb' 32 16).setWidth 32
  | 0x18 => s.sqBaseLo
  | 0x1C => s.sqBaseHi
  | 0x20 => s.sqSize
  | 0x24 => BitVec.ofNat 32 s.tail
  | 0x28 => s.cr0BaseLo
  | 0x2C => s.cr0BaseHi
  | 0x30 => s.cr0Cfg
  | 0x40 => (s.ring 0).headWord
  | 0x44 => (s.ring 1).headWord
  | 0x48 => (s.ring 2).headWord
  | 0x4C => (s.ring 3).headWord
  | _ => 0

/-- The bytes that a read returns, the lowest offset first: the addressed bytes of a register, a whole one,
or two, the lower offset first (R199). Only a read of TIME_LO has an effect, which is `readTime`. -/
def State.readWindow (s : State) (offset : Nat) (r : RegisterRead) : List Byte :=
  match r with
  | .bytes first last => ((bytesOf (s.readRegister offset) 4).take (last.val + 1)).drop first.val
  | .word => bytesOf (s.readRegister offset) 4
  | .pair => bytesOf (s.readRegister offset) 4 ++ bytesOf (s.readRegister (offset + 4)) 4

/-- The offset and form of a read that reads TIME_LO (R199, R200). -/
def TimeRead.form : TimeRead → Nat × RegisterRead
  | .bytes first last => (0x0C, .bytes first last)
  | .word => (0x0C, .word)
  | .withTimeHi => (0x0C, .pair)
  | .withStat => (0x08, .pair)

/-- A read that reads TIME_LO takes the capture, and its bytes are returned (R199, R200). -/
def State.readTime (s : State) (a : TimeRead) : State :=
  let t := { s with timeCapture := s.deviceTime }
  { t with readData := t.readWindow (TimeRead.form a).1 (TimeRead.form a).2 }

end Sys2Proof.Machine
end

