-- ==== Sys2Proof/Machine/HostLink.lean ====
section
/-! DEFINITION. The events of the host link as they reach the block: taken at once, or held while the
reference clock stands still (R2). -/

namespace Sys2Proof.Machine

/-- An error on a submission read. The outstanding read's is fatal in RUNNING, and ends that read; a
discarded read's is dropped with it (R121, R143). -/
def State.readFailed (s : State) (of : ReadId) : State :=
  match of with
  | .discarded => { s with discardedReads := s.discardedReads - 1 }
  | .outstanding =>
    match s.fetch with
    | .reading _ => if s.device = .running then ({ s with fetch := .idle } : State).halt .sqReadError else s
    | _ => s

/-- A host event is taken, by the rule that owns its state. -/
def State.takeHost (s : State) : HostEvent → State
  | .ctrl enable softReset => s.writeCtrl enable softReset
  | .sqTail v => s.writeSqTail v
  | .crHead i v => s.writeCrHead i v
  | .window offset w => s.writeWindow offset w
  | .readReturn of c => s.readReturned of c
  | .readError of => s.readFailed of
  | .writeReady => s.writeReady

/-- Host events are held: the clock does not run, or earlier events still wait (R2, log 8). -/
def State.holdsHost (s : State) : Bool := decide (s.refclk ≠ .running) || !decide (s.heldEvents = [])

/-- The event answers the outstanding submission read. -/
def HostEvent.answersOutstanding : HostEvent → Bool
  | .readReturn .outstanding _ => true
  | .readError .outstanding => true
  | _ => false

/-- A read is outstanding whose answer has not arrived yet (R117). -/
def State.expectsAnswer (s : State) : Bool :=
  match s.fetch with
  | .reading _ => !s.heldEvents.any HostEvent.answersOutstanding
  | _ => false

/-- The event can arrive: an answer of the outstanding read needs one that is not yet answered (R119,
R121, log 1). -/
def State.arrives (s : State) (e : HostEvent) : Bool := !e.answersOutstanding || s.expectsAnswer

/-- A host event arrives: it reaches nothing while a reset is held (log 9), waits in arrival order while
host events are held, and is taken at once otherwise (R2). -/
def State.hostEvent (s : State) (e : HostEvent) : State :=
  if s.resetHeld then s
  else if s.holdsHost then
    if s.arrives e then { s with heldEvents := s.heldEvents ++ [e] } else s
  else s.takeHost e

end Sys2Proof.Machine
end

