-- ==== Sys2Proof/Machine/SubmissionCommands.lean ====
section
/-! DEFINITION. The meanings of the ten submission commands: each is the return of the outstanding
submission read with a record of that kind (R119, R126, log 1). -/

namespace Sys2Proof.Machine

/-- What a command's meaning answers. -/
abbrev Result := Host.Outcome State Fault Refusal

/-- A submission record arrives as the data of the outstanding read. -/
def State.submit (s : State) (c : Submission) : State := s.hostEvent (.readReturn .outstanding c)

/-- NOP (R132). -/
def execNop (h : Header) (s : State) : Result := .next (s.submit (.nop h))

/-- DEFINE_RING (R163 to R167). -/
def execDefineRing (h : Header) (b : DefineRingBody) (s : State) : Result := .next (s.submit (.defineRing h b))

/-- SET_OUTPUT (R24 to R26). -/
def execSetOutput (h : Header) (b : SetOutputBody) (s : State) : Result := .next (s.submit (.setOutput h b))

/-- SET_INPUT (R75 to R77). -/
def execSetInput (h : Header) (b : SetInputBody) (s : State) : Result := .next (s.submit (.setInput h b))

/-- START_TRAIN (R45 to R48, R98 to R101). -/
def execStartTrain (h : Header) (b : StartTrainBody) (s : State) : Result := .next (s.submit (.startTrain h b))

/-- ARM_CAPTURE (R81 to R84). -/
def execArmCapture (h : Header) (b : ArmCaptureBody) (s : State) : Result := .next (s.submit (.armCapture h b))

/-- CANCEL (R62 to R66, R93, R135). -/
def execCancel (h : Header) (s : State) : Result := .next (s.submit (.cancel h))

/-- FENCE (R136, R137). -/
def execFence (h : Header) (timeout : BitVec 64) (s : State) : Result := .next (s.submit (.fence h timeout))

/-- READ_TIME (R7). -/
def execReadTime (h : Header) (s : State) : Result := .next (s.submit (.readTime h))

/-- ADJUST_TIME (R8, R9). -/
def execAdjustTime (h : Header) (value : BitVec 64) (s : State) : Result :=
  .next (s.submit (.adjustTime h value))

end Sys2Proof.Machine
end

