-- ==== Sys2Proof/Machine/ClockCommands.lean ====
section
/-! DEFINITION. The meanings of the resets and of the reference clock's stopping and resuming (R2, R3,
R197, R206). -/

namespace Sys2Proof.Machine

/-- POWER_ON_RESET (R3, R197). -/
def execPowerOnReset (s : State) : Result := .next s.hardReset

/-- HOST_LINK_RESET acts as a power-on reset (R3, R197). -/
def execHostLinkReset (s : State) : Result := .next s.hardReset

/-- RESET_RELEASE: from the next tick device time counts from 0 and the pins are sampled (R3, R197). -/
def execResetRelease (s : State) : Result :=
  .next (if s.resetHeld then { s with resetHeld := false, timeRestart := true } else s)

/-- REFCLK_STOP: from here no tick passes and host events are held (R2). -/
def execRefclkStop (s : State) : Result := .next { s with refclk := .stopped }

/-- REFCLK_RESUME: ticks continue from the held value; host events stay held until the first of them (R2). -/
def execRefclkResume (s : State) : Result :=
  .next (if s.refclk = .stopped then { s with refclk := .resuming } else s)

end Sys2Proof.Machine
end

