-- ==== Sys2Proof/Machine/HostCommands.lean ====
section
/-! DEFINITION. The meanings of the commands of the host link: register accesses, answers of submission
reads, write readiness, bus mastering and vector masks (chapters 6 to 10). -/

namespace Sys2Proof.Machine

/-- ENABLE: a CTRL write with enable set and soft reset clear (R185 to R187). -/
def execEnable (s : State) : Result := .next (s.hostEvent (.ctrl true false))

/-- QUIESCE: a CTRL write with enable and soft reset clear (R185, R189). -/
def execQuiesce (s : State) : Result := .next (s.hostEvent (.ctrl false false))

/-- SOFT_RESET: a CTRL write with soft reset set, whatever its enable bit (R185, R196). -/
def execSoftReset (enableBit : Bool) (s : State) : Result := .next (s.hostEvent (.ctrl enableBit true))

/-- SQTAIL_WRITE (R118). -/
def execSqtailWrite (value : Word) (s : State) : Result := .next (s.hostEvent (.sqTail value))

/-- CRHEAD_WRITE (R156, R157). -/
def execCrheadWrite (ring : Fin 4) (value : Word) (s : State) : Result := .next (s.hostEvent (.crHead ring value))

/-- CONFIGURATION_REGISTER_WRITE: a write of any width at any offset of the window (R186, R199). -/
def execConfigurationRegisterWrite (offset : BitVec 8) (write : RegisterWrite) (s : State) : Result :=
  .next (s.hostEvent (.window offset write))

/-- TIME_LO_READ, answered also while the clock is stopped (R200, R206), and by no part held in reset
(log 9). -/
def execTimeLoRead (access : TimeRead) (s : State) : Result :=
  .next (if s.resetHeld then s else s.readTime access)

/-- SUBMISSION_READ_RETURN: the 64 bytes are taken as one copy (R119, R202). -/
def execSubmissionReadReturn (of : ReadId) (data : Vector Byte 64) (s : State) : Result :=
  .next (s.hostEvent (.readReturn of (decodeSubmission data)))

/-- SUBMISSION_READ_ERROR: each kind of error has the same effect (R121). -/
def execSubmissionReadError (of : ReadId) (_error : ReadError) (s : State) : Result :=
  .next (s.hostEvent (.readError of))

/-- POSTED_WRITE_CHOICE: the link can accept one posted write (R179). -/
def execPostedWriteChoice (s : State) : Result := .next (s.hostEvent .writeReady)

/-- BUS_MASTERING_ENABLE, with the message set-up that goes with it, if any (R117, R179, log 11). -/
def execBusMasteringEnable (msi : Option MsiSetup) (s : State) : Result :=
  .next (if s.resetHeld then s else s.enableMastering msi)

/-- BUS_MASTERING_DISABLE (R117, R179). -/
def execBusMasteringDisable (s : State) : Result :=
  .next (if s.resetHeld then s else { s with busMastering := false })

/-- VECTOR_MASK (R180). -/
def execVectorMask (vector : Fin 4) (s : State) : Result :=
  .next (if s.resetHeld then s else s.setMask vector true)

/-- VECTOR_UNMASK: a message held pending for the vector is sent (R180). -/
def execVectorUnmask (vector : Fin 4) (s : State) : Result :=
  .next (if s.resetHeld then s else (s.setMask vector false).releaseMessage vector)

end Sys2Proof.Machine
end

