-- ==== Sys2Proof/Machine/Tick.lean ====
section
/-! DEFINITION. The tick, and the events of the part that are due at the present tick (chapter 1; logs 2
and 3). -/

namespace Sys2Proof.Machine

/-- An event of the present tick: a held host event, or an event of the part's own, which is a command
of the table. -/
inductive Due where
  | host (e : HostEvent)
  | own (c : Instr)
deriving DecidableEq, Repr

/-- The delivery of a calendar entry, as a command. -/
def Entry.delivery (e : Entry) : List Due :=
  match e.owner, e.action with
  | .train i, .start => [.own (.startDelivered i)]
  | .train i, .boundary => [.own (.boundaryDelivered i)]
  | .capture i, .openWindow => [.own (.openDelivered i)]
  | .capture i, .closeWindow => [.own (.closeDelivered i)]
  | .fence, .timeout => [.own .timeoutDelivered]
  | _, _ => []

/-- The delivery the calendar makes now, its head's if that is due (R12, R15). -/
def State.calendarDue (s : State) : List Due :=
  match s.dueEntry with
  | none => []
  | some e => e.delivery

/-- What an input line has to do at the present tick: be sampled after its pin changed, or confirm its
candidate (R74, R206). -/
def State.inputDue (s : State) (i : Fin 8) : List Due :=
  if s.sampleDue i then [.own (.inputLevelChange i (s.input i).pin)]
  else if (s.confirmDue i).isSome then [.own (.edgeConfirmed i)]
  else []

/-- A holdoff timer's expiry (R171). -/
def State.holdoffDue (s : State) (i : Fin 4) : List Due :=
  if (s.ring i).expiryDue s.deviceTime then [.own (.holdoffExpiry i)] else []

/-- A carrier toggle (R29). -/
def State.toggleDue (s : State) (i : Fin 16) : List Due :=
  if (s.line i).toggleDue then [.own (.carrierToggle i)] else []

/-- The quiesce limit has run out (R192). -/
def State.limitReached (s : State) : Bool :=
  decide (s.device = .quiescing) && decide (Config.quiesceLimit ≤ s.quiesceElapsed)

/-- The outstanding read has gone unanswered for its limit (R121). -/
def State.readOverdue (s : State) : Bool :=
  match s.fetch with
  | .reading r => decide (s.device = .running) && decide (Config.readLimit ≤ r.elapsed)
  | _ => false

/-- The oldest host event held while the clock stood still, to be taken once it runs (R2). Where the clock
stops again inside the tick at which they are taken, those not yet taken stay held until it has resumed
once more (DESIGN CHOICE, log 8). -/
def State.hostDue (s : State) : List Due :=
  match s.refclk, s.heldEvents with
  | .running, e :: _ => [.host e]
  | _, _ => []

/-- Every event due at the present tick and not yet taken. The spec leaves their order open but for that
of the calendar, which offers its head only (R15). -/
def State.dueEvents (s : State) : List Due :=
  if s.resetHeld then []
  else s.hostDue ++ s.calendarDue ++ (List.finRange 8).flatMap s.inputDue
    ++ (List.finRange 4).flatMap s.holdoffDue ++ (List.finRange 16).flatMap s.toggleDue
    ++ (if s.limitReached then [.own .quiesceLimitExpiry] else [])
    ++ (if s.readOverdue then [.own .submissionReadTimeout] else [])

/-- Which of several due events is taken: the only one, or one that a free value points at (log 3). -/
def chooseDue (asked : Nat) : List Due → Option Due
  | [] => none
  | [d] => some d
  | ds => ds[Config.eventOrder asked % ds.length]?

/-- The elapsed ticks of an outstanding read (R121). -/
def Fetch.advance : Fetch → Fetch
  | .reading r => .reading { r with elapsed := r.elapsed + 1 }
  | .idle => .idle
  | .stalled c t => .stalled c t
  | .fenced f => .fenced f

/-- Every block one tick on: device time counts, or reads 0 at the first tick after a reset; modulators
and elapsed counts advance; the pins are to be sampled anew (R2, R3, R29, R121, R189, R206). -/
def State.count (s : State) : State :=
  { s with
    refclk := .running
    deviceTime := if s.timeRestart then 0 else s.deviceTime + 1
    timeRestart := false
    lines := Vector.ofFn fun i => (s.line i).advance
    inputs := Vector.ofFn fun i => { s.input i with sampled := false }
    fetch := s.fetch.advance
    quiesceElapsed := if s.device = .quiescing then s.quiesceElapsed + 1 else s.quiesceElapsed }

/-- A tick. While the clock is stopped none passes (R2); while a reset is held nothing counts (R197). A
read that became due while the clock stood still is issued (R117, log 19). -/
def State.tick (s : State) : State :=
  match s.refclk with
  | .stopped => s
  | .running => if s.resetHeld then s else s.count.issueRead
  | .resuming => if s.resetHeld then { s with refclk := .running } else s.count.issueRead

end Sys2Proof.Machine
end

