-- ==== Sys2Proof/Machine/TickCommands.lean ====
section
/-! DEFINITION. The meanings of the events that fall at a tick: calendar deliveries, inputs, timers and
carrier toggles. An event that is not due at the present tick does not take place, and changes nothing
(log 4). -/

namespace Sys2Proof.Machine

/-- START_DELIVERED: the train goes RUNNING with segment 0 (R50). -/
def execStartDelivered (slot : Fin 32) (s : State) : Result :=
  .next (s.deliver (.train slot) .start fun r =>
    match r.train slot with
    | none => r
    | some t => r.begin slot t)

/-- BOUNDARY_DELIVERED (R51 to R53). -/
def execBoundaryDelivered (slot : Fin 32) (s : State) : Result :=
  .next (s.deliver (.train slot) .boundary fun r => r.boundary slot)

/-- OPEN_DELIVERED (R85). -/
def execOpenDelivered (slot : Fin 16) (s : State) : Result :=
  .next (s.deliver (.capture slot) .openWindow fun r => r.openCapture slot)

/-- CLOSE_DELIVERED: the capture ends DEADLINE (R90). -/
def execCloseDelivered (slot : Fin 16) (s : State) : Result :=
  .next (s.deliver (.capture slot) .closeWindow fun r => r.endCapture slot .deadline)

/-- TIMEOUT_DELIVERED: the fence ends TIMEOUT with the count still live, and fetching resumes (R139). -/
def execTimeoutDelivered (s : State) : Result :=
  .next (s.deliver .fence .timeout fun r =>
    match r.fetch with
    | .fenced f => (r.endFence f .timeout).issueRead
    | _ => r)

/-- INPUT_LEVEL_CHANGE (R74). -/
def execInputLevelChange (line : Fin 8) (level : Level) (s : State) : Result := .next (s.pinChange line level)

/-- EDGE_CONFIRMED: the candidate has held for the filter length (R74, R79). -/
def execEdgeConfirmed (line : Fin 8) (s : State) : Result :=
  .next (match s.confirmDue line with
    | none => s
    | some c => (s.setInput line (s.settled line)).confirm line c)

/-- HOLDOFF_EXPIRY (R171). -/
def execHoldoffExpiry (ring : Fin 4) (s : State) : Result :=
  .next (if (s.ring ring).expiryDue s.deviceTime then s.setRing ring { s.ring ring with timer := .expired }
    else s)

/-- QUIESCE_LIMIT_EXPIRY (R192). -/
def execQuiesceLimitExpiry (s : State) : Result := .next (if s.limitReached then s.endLimit else s)

/-- SUBMISSION_READ_TIMEOUT: fatal; the read stays on the link, to be dropped if it returns (R121). -/
def execSubmissionReadTimeout (s : State) : Result := .next (if s.readOverdue then s.halt .sqReadError else s)

/-- CARRIER_TOGGLE (R29). -/
def execCarrierToggle (line : Fin 16) (s : State) : Result :=
  .next (if (s.line line).toggleDue then s.setLine line (s.line line).toggle else s)

end Sys2Proof.Machine
end

