-- ==== Sys2Proof/Machine/Dispatch.lean ====
section
/-! DEFINITION. What each command does: one arm a constructor, each one call of its meaning. -/

namespace Sys2Proof.Machine

/-- The effect of a command on everything but the queue. -/
def exec (i : Instr) (s : State) : Host.Outcome State Fault Refusal :=
  match i with
  | .nop h => Sys2Proof.Machine.execNop h s
  | .defineRing h b => Sys2Proof.Machine.execDefineRing h b s
  | .setOutput h b => Sys2Proof.Machine.execSetOutput h b s
  | .setInput h b => Sys2Proof.Machine.execSetInput h b s
  | .startTrain h b => Sys2Proof.Machine.execStartTrain h b s
  | .armCapture h b => Sys2Proof.Machine.execArmCapture h b s
  | .cancel h => Sys2Proof.Machine.execCancel h s
  | .fence h timeout => Sys2Proof.Machine.execFence h timeout s
  | .readTime h => Sys2Proof.Machine.execReadTime h s
  | .adjustTime h value => Sys2Proof.Machine.execAdjustTime h value s
  | .enable => Sys2Proof.Machine.execEnable s
  | .quiesce => Sys2Proof.Machine.execQuiesce s
  | .softReset enableBit => Sys2Proof.Machine.execSoftReset enableBit s
  | .sqtailWrite value => Sys2Proof.Machine.execSqtailWrite value s
  | .crheadWrite ring value => Sys2Proof.Machine.execCrheadWrite ring value s
  | .configurationRegisterWrite offset write => Sys2Proof.Machine.execConfigurationRegisterWrite offset write s
  | .timeLoRead access => Sys2Proof.Machine.execTimeLoRead access s
  | .powerOnReset => Sys2Proof.Machine.execPowerOnReset s
  | .hostLinkReset => Sys2Proof.Machine.execHostLinkReset s
  | .refclkStop => Sys2Proof.Machine.execRefclkStop s
  | .refclkResume => Sys2Proof.Machine.execRefclkResume s
  | .busMasteringEnable msi => Sys2Proof.Machine.execBusMasteringEnable msi s
  | .vectorUnmask vector => Sys2Proof.Machine.execVectorUnmask vector s
  | .submissionReadReturn of data => Sys2Proof.Machine.execSubmissionReadReturn of data s
  | .submissionReadError of error => Sys2Proof.Machine.execSubmissionReadError of error s
  | .submissionReadTimeout => Sys2Proof.Machine.execSubmissionReadTimeout s
  | .inputLevelChange line level => Sys2Proof.Machine.execInputLevelChange line level s
  | .edgeConfirmed line => Sys2Proof.Machine.execEdgeConfirmed line s
  | .startDelivered slot => Sys2Proof.Machine.execStartDelivered slot s
  | .boundaryDelivered slot => Sys2Proof.Machine.execBoundaryDelivered slot s
  | .openDelivered slot => Sys2Proof.Machine.execOpenDelivered slot s
  | .closeDelivered slot => Sys2Proof.Machine.execCloseDelivered slot s
  | .timeoutDelivered => Sys2Proof.Machine.execTimeoutDelivered s
  | .holdoffExpiry ring => Sys2Proof.Machine.execHoldoffExpiry ring s
  | .quiesceLimitExpiry => Sys2Proof.Machine.execQuiesceLimitExpiry s
  | .postedWriteChoice => Sys2Proof.Machine.execPostedWriteChoice s
  | .carrierToggle line => Sys2Proof.Machine.execCarrierToggle line s
  | .busMasteringDisable => Sys2Proof.Machine.execBusMasteringDisable s
  | .vectorMask vector => Sys2Proof.Machine.execVectorMask vector s
  | .resetRelease => Sys2Proof.Machine.execResetRelease s

end Sys2Proof.Machine
end

