-- ==== Sys2Proof/Machine/Idle.lean ====
section
/-! DEFINITION. What the block does on an empty queue: it takes an event due at the present tick, and when
none is left it lets a tick pass (logs 2 and 3). -/

namespace Sys2Proof.Machine

/-- A due event is taken: a held host event leaves its queue, the part's own is its command. -/
def takeDue (s : State) : Due → Result
  | .host e => .next (({ s with heldEvents := s.heldEvents.tail } : State).takeHost e)
  | .own c => exec c s

/-- A due event, or a tick. Each choice asks the free order afresh. -/
def idle (s : State) : Result :=
  match chooseDue s.choices s.dueEvents with
  | none => .next s.tick
  | some d => takeDue { s with choices := s.choices + 1 } d

end Sys2Proof.Machine
end

