-- ==== Sys2Proof/Safety.lean ====
section
/-! DEFINITION. The terms that the claims are stated in: what a sound state is, by the laws of the spec that
hold at every tick; when the part takes a command at once; and what the taking of a submission record does
whatever its kind. -/

namespace Sys2Proof.Machine

/-- The waiting fence, if one waits (R136). -/
def Fetch.waiting : Fetch → Option Fence
  | .fenced f => some f
  | .idle => none
  | .reading _ => none
  | .stalled _ _ => none

/-- The train holds a place owed on ring `i` (R48, R147). -/
def Train.owes (i : Fin 4) (t : Option Train) : Bool := t.any fun u => decide (u.ring = i)

/-- The capture holds a place owed on ring `i` (R84, R147). -/
def Capture.owes (i : Fin 4) (c : Option Capture) : Bool := c.any fun u => decide (u.ring = i)

/-- The fence holds a place owed on ring `i` (R136, R147). -/
def Fence.owes (i : Fin 4) (f : Option Fence) : Bool := f.any fun u => decide (u.ring = i)

/-- How many live works, the fence among them, report to ring `i` (R148). -/
def State.worksOn (s : State) (i : Fin 4) : Nat :=
  (List.finRange 32).countP (fun k => Train.owes i (s.train k))
    + (List.finRange 16).countP (fun k => Capture.owes i (s.capture k))
    + (if Fence.owes i s.fetch.waiting then 1 else 0)

/-- A work is live: its slot is not FREE, or it is the waiting fence (R10). -/
def State.live (s : State) : Owner → Bool
  | .train i => (s.train i).isSome
  | .capture i => (s.capture i).isSome
  | .fence => s.fetch.waiting.isSome

/-- No train, no capture and no fence is live. -/
abbrev State.NoWork (s : State) : Prop :=
  (∀ i, s.train i = none) ∧ (∀ i, s.capture i = none) ∧ s.fetch.waiting = none

/-- On every output line the modulator runs exactly while the present level is CARRIER (section 2.4). A
line's owner and successor are live trains on that line and two different ones, a successor only stands
behind an owner, and every live train is the owner or the successor of its line (section 2.5). -/
abbrev State.LinesSound (s : State) : Prop :=
  (∀ l, (s.line l).modulator.isSome = decide ((s.line l).present = .carrier))
    ∧ (∀ l, ∀ i ∈ (s.line l).owner, ∃ t ∈ s.train i, t.line = l)
    ∧ (∀ l, ∀ i ∈ (s.line l).successor, ∃ t ∈ s.train i, t.line = l)
    ∧ (∀ l, (s.line l).successor ≠ none →
      (s.line l).owner ≠ none ∧ (s.line l).owner ≠ (s.line l).successor)
    ∧ (∀ i, ∀ t ∈ s.train i, (s.line t.line).owner = some i ∨ (s.line t.line).successor = some i)

/-- A ring in service has a legal size, and its indices lie below it (section 7.1). -/
abbrev Ring.Sound (r : Ring) : Prop :=
  r.state = .undefined ∨ (r.size ∈ crSizes ∧ r.writeIndex < r.size ∧ r.hostHead < r.size)

/-- Every ring is sound; CR0 is ACTIVE throughout RUNNING and QUIESCING (R122, R161), and in OFF and
HALTED every ring is UNDEFINED (R145). -/
abbrev State.RingsSound (s : State) : Prop :=
  (∀ i, (s.ring i).Sound)
    ∧ (s.device = .running ∨ s.device = .quiescing → (s.ring 0).state = .active)
    ∧ (s.device = .off ∨ s.device = .halted → ∀ i, (s.ring i).state = .undefined)

/-- The outstanding submission read, if there is one (R117). -/
def Fetch.outstanding : Fetch → Option SubmissionRead
  | .reading r => some r
  | .idle => none
  | .stalled _ _ => none
  | .fenced _ => none

/-- Outside OFF the submission ring has a legal size, head and tail lie below it (section 6.1), and an
outstanding read belongs to RUNNING and asks for the record at head (R117). -/
abbrev State.UnitSound (s : State) : Prop :=
  (s.device ≠ .off → s.sqSize.toNat ∈ sqSizes ∧ s.head < s.sqSize.toNat ∧ s.tail < s.sqSize.toNat)
    ∧ ∀ r ∈ s.fetch.outstanding, s.device = .running ∧ r.index = s.head
      ∧ r.address = s.sqBase + BitVec.ofNat 64 (64 * s.head)

/-- The admission list holds exactly the live works and no duplicates, every calendar entry belongs to one,
and there are none outside RUNNING (R10, R11, R18, R184). -/
abbrev State.WorksSound (s : State) : Prop :=
  s.admission.Nodup
    ∧ (∀ i, (s.train i).isSome = true ↔ Owner.train i ∈ s.admission)
    ∧ (∀ i, (s.capture i).isSome = true ↔ Owner.capture i ∈ s.admission)
    ∧ (s.fetch.waiting.isSome = true ↔ Owner.fence ∈ s.admission)
    ∧ (∀ e ∈ s.calendar, s.live e.owner = true)
    ∧ (s.device ≠ .running → s.NoWork)

/-- The tag of a live work. -/
def State.tagOf (s : State) : Work → Option Tag
  | .train i => (s.train i).map (·.tag)
  | .capture i => (s.capture i).map (·.tag)

/-- The tag map holds exactly one entry per live train and capture, and no two entries bear one tag
(R131); and a waiting fence counts these works, at least one (R137, R138). -/
abbrev State.TagsSound (s : State) : Prop :=
  (s.tagMap.map (·.1)).Nodup ∧ (∀ e ∈ s.tagMap, e.1 ≠ 0 ∧ s.tagOf e.2 = some e.1)
    ∧ (∀ i, (s.train i).isSome = true → Work.train i ∈ s.tagMap.map (·.2))
    ∧ (∀ i, (s.capture i).isSome = true → Work.capture i ∈ s.tagMap.map (·.2))
    ∧ ∀ f ∈ s.fetch.waiting, f.count = s.tagMap.length ∧ f.count ≠ 0

/-- A train that waits on a train's end names a live train, and one older than itself (R97). -/
abbrev State.ChainsSound (s : State) : Prop :=
  ∀ j, ∀ u ∈ s.train j, u.state = .waiting → ∀ g o, u.start = .afterEnd g o →
    ∃ i, ∃ t ∈ s.train i, t.tag = g ∧ s.rank (.train i) < s.rank (.train j)

/-- The trains below a tag in the waiting relation: those that wait on the end of the train it names, those
that wait on theirs, and so on (R97, R111). -/
inductive State.Below (s : State) : Tag → Fin 32 → Prop
  | waits {g : Tag} {j : Fin 32} {u : Train} :
      s.train j = some u → u.state = .waiting → u.start.onEnd g = true → s.Below g j
  | deeper {g : Tag} {i j : Fin 32} {t : Train} :
      s.Below g i → s.train i = some t → s.Below t.tag j → s.Below g j

/-- The rings' account: each ring owes one place for every live work that reports to it and no other, its
staged records and owed places never exceed 64, and an UNDEFINED ring has neither (R147, R148). -/
abbrev State.AccountsSound (s : State) : Prop :=
  ∀ i, (s.ring i).owed = s.worksOn i ∧ (s.ring i).account ≤ Config.accountPlaces
    ∧ ((s.ring i).state = .undefined → (s.ring i).account = 0)

/-- How many calendar entries a work holds. -/
def State.entriesOf (s : State) (o : Owner) : Nat := s.calendar.countP fun e => decide (e.owner = o)

/-- A train's segments are as its admission checked them (R45): one to eight, each of 4 to 2^30-1 ticks;
and so is its offset, a number of 32 bits. -/
abbrev Train.SegmentsSound (t : Train) : Prop :=
  1 ≤ t.segments.length ∧ t.segments.length ≤ 8
    ∧ (∀ g ∈ t.segments, 4 ≤ g.duration ∧ g.duration < 2 ^ 30)
    ∧ t.start.offset < 2 ^ 32

/-- How many calendar entries the train in a slot is to hold: none while the slot is FREE or the train
WAITING, and one in ARMED, RUNNING and STOPPING (R49). -/
def Train.entryCount (t : Option Train) : Nat :=
  match t with
  | none => 0
  | some u => if u.state = .waiting then 0 else 1

/-- A live train's segments are sound, every train slot has the calendar entries of its state (R49), and no
work has two entries (R10). -/
abbrev State.EntriesSound (s : State) : Prop :=
  (∀ i, (∀ t ∈ s.train i, t.SegmentsSound) ∧ s.entriesOf (.train i) = Train.entryCount (s.train i))
    ∧ (s.calendar.map (·.owner)).Nodup

/-- Every entry's action belongs to its owner's kind (section 1.6). -/
def Entry.legal (e : Entry) : Bool :=
  match e.owner, e.action with
  | .train _, .start => true
  | .train _, .boundary => true
  | .capture _, .openWindow => true
  | .capture _, .closeWindow => true
  | .fence, .timeout => true
  | _, _ => false

/-- Entry `e` does not stand after `f`: its due time is nearer, or is the same with an owner no younger
(R12). -/
abbrev State.NotAfter (s : State) (e f : Entry) : Prop :=
  e.due.ahead s.deviceTime < f.due.ahead s.deviceTime ∨ (e.due = f.due ∧ s.rank e.owner ≤ s.rank f.owner)

/-- The calendar stands in calendar order, its entries are legal, and none is overdue: each is due now or
in the future (R12, R14). While device time is about to restart, or a reset is held, it is 0 (R3). -/
abbrev State.CalendarSound (s : State) : Prop :=
  s.calendar.Pairwise s.NotAfter
    ∧ (∀ e ∈ s.calendar, e.legal = true ∧ e.due.ahead s.deviceTime ≤ Config.horizon)
    ∧ (s.timeRestart = true ∨ s.resetHeld = true → s.deviceTime = 0)

/-! When a command is taken at once -/

/-- Host events are taken at once: no reset is held, the reference clock runs and nothing waits (R2). -/
abbrev State.Listening (s : State) : Prop :=
  s.resetHeld = false ∧ s.refclk = .running ∧ s.heldEvents = []

/-- A submission record returned now is taken at once: the part listens, is RUNNING, and has a read
outstanding (R119). -/
abbrev State.Fetching (s : State) : Prop :=
  s.Listening ∧ s.device = .running ∧ s.fetch.outstanding.isSome = true

/-- The header names ring `i`, which is ACTIVE and has a place left (R122, R123). -/
abbrev State.Grants (s : State) (h : Header) (i : Fin 4) : Prop :=
  ringNumber h.ring = some i ∧ (s.ring i).state = .active ∧ (s.ring i).account < Config.accountPlaces

/-! What the taking of a record does, whatever its kind -/

/-- The record just returned is consumed: head stands past it and the unit is IDLE (R119). -/
def State.consumed (s : State) : State := { s with head := (s.head + 1) % s.sqSize.toNat, fetch := .idle }

/-- The record is accepted: it takes an admission number (R130). -/
def State.accepted (s : State) : State := { s.consumed with admissionCounter := s.admissionCounter + 1 }

/-- The CMD_DONE that answers a record returned and processed at this tick, field by field (R129). -/
def State.answer (s : State) (st : Status) (tag : Tag) (count : Nat) : Completion :=
  { kind := .cmdDone, status := st, late := false, lateOpen := false, cascade := false, direction := .rising
    mask := s.faultMask, tag := tag, sqHead := s.head, time := s.deviceTime, time2 := s.deviceTime
    count := count, dropped := 0 }

end Sys2Proof.Machine
end

