-- ==== Sys2Proof/Certificates/Slice0/Obligations.lean ====
section
/-! DEFINITION. What is claimed of the model, one statement each, for the provers. OBLIGATIONS.json names
the rules and sections of spec/ that each rests on. -/

open Sys2Proof Sys2Proof.Machine

/-! The queue and the tick -/

/-- One step takes the command at the front of the queue, on the state with the queue's rest. -/
def Obligations.StepTakesTheFrontCommand : Prop :=
  ∀ (s : State) (c : Instr) (rest : List Instr), s.pending = c :: rest →
    step s = exec c { s with pending := rest }

/-- The state with the calendar's head, the entry of owner `o` with action `a` due now, delivered (R15). -/
abbrev DueNow (s : State) (o : Owner) (a : Action) (rest : List Entry) : Prop :=
  s.calendar = { due := s.deviceTime, owner := o, action := a } :: rest

/-- The candidate `c` of line `i` is confirmed at this tick: it has been seen for the filter length, and is
seen at this tick. -/
abbrev ConfirmedNow (s : State) (i : Fin 8) (c : Candidate) : Prop :=
  (s.input i).enabled = true ∧ (s.input i).candidate = some c ∧ s.rawNow i = c.level
    ∧ s.deviceTime = c.firstSeen + BitVec.ofNat 48 (s.input i).filterLength

/-- The event of the part's own that a command is falls at this tick: the entry at the calendar's head is due
(R15), a pin's change is to be sampled or a candidate is confirmed (R74, R206; log 7 for which comes first), a
holdoff timer expires (R171), a carrier's output is to change (R29, log 15), or a limit has run out (R121, R192). -/
def OwnEventDue (s : State) : Instr → Prop
  | .startDelivered k => ∃ rest, DueNow s (.train k) .start rest
  | .boundaryDelivered k => ∃ rest, DueNow s (.train k) .boundary rest
  | .openDelivered k => ∃ rest, DueNow s (.capture k) .openWindow rest
  | .closeDelivered k => ∃ rest, DueNow s (.capture k) .closeWindow rest
  | .timeoutDelivered => ∃ rest, DueNow s .fence .timeout rest
  | .inputLevelChange i v =>
    (s.input i).sampled = false ∧ (s.input i).pin ≠ (s.input i).raw ∧ v = (s.input i).pin
  | .edgeConfirmed i =>
    (∃ c, ConfirmedNow s i c)
      ∧ ¬((s.input i).sampled = false ∧ (s.input i).pin ≠ (s.input i).raw)
  | .holdoffExpiry i => (s.ring i).state = .active ∧ (s.ring i).timer = .running s.deviceTime
  | .carrierToggle i =>
    ∃ m, (s.line i).modulator = some m ∧ m.high ≠ decide (m.position < (s.line i).highWidth)
  | .quiesceLimitExpiry => s.device = .quiescing ∧ 125000 ≤ s.quiesceElapsed
  | .submissionReadTimeout => s.device = .running ∧ ∃ r, s.fetch = .reading r ∧ 6250000 ≤ r.elapsed
  | _ => False

/-- With no command waiting a step takes an event that is due, the only one if there is one only, and raises the
counter of choices (logs 2 and 3); the part's own events that are due are those of `OwnEventDue`, unless a reset
is held. With no event due a step is a tick: device time counts on, or reads 0 at the first tick after a reset;
every modulator, the read timer and the quiesce limit count it; and nothing else changes but that a due
submission read may be issued (logs 2, 6 and 19). While the clock is stopped nothing happens (R2). -/
def Obligations.EmptyQueueTakesWhatIsDueOrTicks : Prop :=
  (∀ (s : State) (c : Instr), Due.own c ∈ s.dueEvents ↔ s.resetHeld = false ∧ OwnEventDue s c)
  ∧ (∀ s : State, s.pending = [] →
    (∀ c, s.dueEvents = [.own c] → step s = exec c { s with choices := s.choices + 1 })
    ∧ (s.dueEvents ≠ [] →
      (∃ c, Due.own c ∈ s.dueEvents ∧ step s = exec c { s with choices := s.choices + 1 })
      ∨ ∃ e rest, s.heldEvents = e :: rest ∧ Due.host e ∈ s.dueEvents ∧
        step s = .next (State.takeHost { s with heldEvents := rest, choices := s.choices + 1 } e)))
  ∧ ∀ s : State, s.pending = [] → s.dueEvents = [] → s.resetHeld = false →
    (s.refclk ≠ .stopped → step s = .next (State.issueRead
      { s with
        refclk := .running
        deviceTime := if s.timeRestart then 0 else s.deviceTime + 1
        timeRestart := false
        lines := Vector.ofFn fun i =>
          { s.line i with
            modulator := (s.line i).modulator.map fun m =>
              { m with position := (m.position + 1) % (s.line i).period } }
        inputs := Vector.ofFn fun i => { s.input i with sampled := false }
        fetch := match s.fetch with
          | .reading r => .reading { r with elapsed := r.elapsed + 1 }
          | other => other
        quiesceElapsed := if s.device = .quiescing then s.quiesceElapsed + 1 else s.quiesceElapsed }))
    ∧ (s.refclk = .stopped → step s = .next s)

/-! Records -/

/-- The 64 bytes of a submission record, written from its fields, decode to that record: no field that a
kind's table lists is dropped or moved. A record of no known kind keeps its kind byte and header. -/
def Obligations.RecordBytesDecodeToTheirRecord : Prop :=
  ∀ c : Submission, (∀ k h, c = .unknown k h → k.toNat = 0 ∨ 10 < k.toNat) →
    decodeSubmission (encodeSubmission c) = c

/-- Each of the ten submission commands is the return of the outstanding read with the 64 bytes of that
record (log 1). -/
def Obligations.SubmissionCommandIsItsReadReturn : Prop :=
  ∀ (s : State) (h : Header),
    (exec (.nop h) s = exec (.submissionReadReturn .outstanding (encodeSubmission (.nop h))) s)
    ∧ (∀ b, exec (.defineRing h b) s =
        exec (.submissionReadReturn .outstanding (encodeSubmission (.defineRing h b))) s)
    ∧ (∀ b, exec (.setOutput h b) s =
        exec (.submissionReadReturn .outstanding (encodeSubmission (.setOutput h b))) s)
    ∧ (∀ b, exec (.setInput h b) s =
        exec (.submissionReadReturn .outstanding (encodeSubmission (.setInput h b))) s)
    ∧ (∀ b, exec (.startTrain h b) s =
        exec (.submissionReadReturn .outstanding (encodeSubmission (.startTrain h b))) s)
    ∧ (∀ b, exec (.armCapture h b) s =
        exec (.submissionReadReturn .outstanding (encodeSubmission (.armCapture h b))) s)
    ∧ (exec (.cancel h) s = exec (.submissionReadReturn .outstanding (encodeSubmission (.cancel h))) s)
    ∧ (∀ n, exec (.fence h n) s =
        exec (.submissionReadReturn .outstanding (encodeSubmission (.fence h n))) s)
    ∧ (exec (.readTime h) s = exec (.submissionReadReturn .outstanding (encodeSubmission (.readTime h))) s)
    ∧ (∀ v, exec (.adjustTime h v) s =
        exec (.submissionReadReturn .outstanding (encodeSubmission (.adjustTime h v))) s)

/-- The 32 bytes of a completion record stand at the positions of R204. -/
def Obligations.CompletionRecordLayout : Prop :=
  ∀ (c : Completion) (phase : Bool),
    (c.bytes phase).length = 32
    ∧ (c.bytes phase)[0]? = some c.kind.code ∧ (c.bytes phase)[1]? = some c.status.code
    ∧ (∀ f, (c.bytes phase)[2]? = some f →
        f.getLsbD 0 = phase ∧ f.getLsbD 1 = c.late ∧ f.getLsbD 2 = c.lateOpen ∧ f.getLsbD 3 = c.cascade
          ∧ f.getLsbD 4 = decide (c.direction = .falling) ∧ f.extractLsb' 5 3 = 0#3)
    ∧ (c.bytes phase)[3]? = some c.mask
    ∧ ((c.bytes phase).drop 4).take 4 = bytesOf c.tag 2 ++ bytesOf (BitVec.ofNat 16 c.sqHead) 2
    ∧ ((c.bytes phase).drop 8).take 16 =
        bytesOf (c.time.setWidth 64) 8 ++ bytesOf (c.time2.setWidth 64) 8
    ∧ (c.bytes phase).drop 24 =
        bytesOf (BitVec.ofNat 32 c.count) 4 ++ bytesOf (BitVec.ofNat 16 c.dropped) 2 ++ [0, 0]

/-! Laws that every step keeps -/

/-- Every step keeps every output line's modulator running exactly while the line's level is CARRIER, and
every line's owner and successor the live trains on that line. -/
def Obligations.ModulatorsRunExactlyAtCarrier : Prop :=
  ∀ s t : State, s.LinesSound → step s = .next t → t.LinesSound

/-- Every step keeps the rings and the submission reads sound: legal sizes, indices below them, CR0 ACTIVE
throughout RUNNING and QUIESCING, all rings UNDEFINED in OFF and HALTED, and a read outstanding in RUNNING
only, of the record at head. -/
def Obligations.RingsAndReadsStaySound : Prop :=
  ∀ s t : State, s.RingsSound → s.UnitSound → step s = .next t → t.RingsSound ∧ t.UnitSound

/-- Every step keeps the account of works: the admission list holds exactly the live works, each once, the
tag map names exactly the live trains and captures, each train holds the calendar entries of its state, there
is no work outside RUNNING, each ring owes one place for each live work that reports to it, and no ring's
staged records and owed places ever exceed 64; and a train that waits on a train's end names a live and older
one. -/
def Obligations.EveryWorkKeepsItsPlace : Prop :=
  ∀ s t : State, s.RingsSound → s.WorksSound → s.TagsSound → s.AccountsSound → s.EntriesSound →
    step s = .next t →
    t.RingsSound ∧ t.WorksSound ∧ t.TagsSound ∧ t.AccountsSound ∧ t.EntriesSound
      ∧ (s.ChainsSound → t.ChainsSound)

/-- Every step keeps the calendar in calendar order with no entry overdue: an entry is delivered at its due
tick and at no other. -/
def Obligations.NoCalendarEntryIsOverdue : Prop :=
  ∀ s t : State, s.WorksSound → s.CalendarSound → step s = .next t → t.WorksSound ∧ t.CalendarSound

/-- The machine after reset is sound in every way that the statements above assume. -/
def Obligations.ResetIsSound : Prop :=
  State.reset.LinesSound ∧ State.reset.RingsSound ∧ State.reset.UnitSound ∧ State.reset.WorksSound
    ∧ State.reset.TagsSound ∧ State.reset.AccountsSound ∧ State.reset.EntriesSound
    ∧ State.reset.ChainsSound ∧ State.reset.CalendarSound

/-! Submission commands -/

/-- A NOP and a READ_TIME on an ACTIVE ring with a place left take an admission number and are answered
with CMD_DONE OK at this tick, and change nothing else; the next read follows. So does the return of the read
with the 64 bytes of that NOP. -/
def Obligations.NopAndReadTimeAreAnsweredOk : Prop :=
  ∀ (s : State) (h : Header) (i : Fin 4), s.Fetching → s.Grants h i → h.flags = 0 → h.reserved = 0 →
    exec (.nop h) s =
        .next (s.accepted.stageFree i (s.consumed.answer .ok h.tag s.admissionCounter.toNat)).issueRead
    ∧ exec (.readTime h) s =
        .next (s.accepted.stageFree i (s.consumed.answer .ok h.tag s.admissionCounter.toNat)).issueRead
    ∧ exec (.submissionReadReturn .outstanding (encodeSubmission (.nop h))) s =
        .next (s.accepted.stageFree i (s.consumed.answer .ok h.tag s.admissionCounter.toNat)).issueRead

/-- ADJUST_TIME with no work live sets device time to its value, moves candidates' first-seen ticks and
running holdoff expiries by the same difference (those of ACTIVE rings, log 18), and is answered with the
new time. -/
def Obligations.AdjustTimeMovesTheTimebase : Prop :=
  ∀ (s : State) (h : Header) (value : BitVec 64) (i : Fin 4), s.Fetching → s.Grants h i →
    h.flags = 0 → h.reserved = 0 → value.toNat < 2 ^ 48 →
    (∀ k, s.train k = none) → (∀ k, s.capture k = none) →
    exec (.adjustTime h value) s = .next (State.issueRead (State.stageFree
      { s.accepted with
        deviceTime := value.setWidth 48
        timeRestart := false
        inputs := Vector.ofFn fun k =>
          { s.input k with
            candidate := (s.input k).candidate.map fun c =>
              { c with firstSeen := c.firstSeen + (value.setWidth 48 - s.deviceTime) } }
        rings := Vector.ofFn fun k =>
          { s.ring k with
            timer := match (s.ring k).state, (s.ring k).timer with
              | .active, .running e => .running (e + (value.setWidth 48 - s.deviceTime))
              | _, timer => timer } }
      i { s.consumed.answer .ok h.tag s.admissionCounter.toNat with time := value.setWidth 48 }))

/-- SET_OUTPUT on an ownerless line replaces its five settings and puts it to its new idle level with the
modulator stopped. -/
def Obligations.SetOutputReplacesTheLine : Prop :=
  ∀ (s : State) (h : Header) (b : SetOutputBody) (i : Fin 4) (l : Fin 16) (d : Drive) (v : Level)
    (f : FaultLevel), s.Fetching → s.Grants h i → h.flags = 0 → h.reserved = 0 →
    h.line.toNat = l.val → driveOfCode b.drive = some d → levelOfCode b.idle = some v →
    faultOfCode b.fault = some f →
    (b.highWidth = 0 ∧ b.period = 0 ∨ 0 < b.highWidth.toNat ∧ b.highWidth.toNat < b.period.toNat) →
    (s.line l).owner = none →
    exec (.setOutput h b) s = .next (((s.accepted.setLine l
        { s.line l with
          drive := d, idle := v, faultLevel := f
          highWidth := b.highWidth.toNat, period := b.period.toNat
          present := (match v with | .low => LineLevel.low | .high => LineLevel.high)
          modulator := none }).stageFree i
        (s.consumed.answer .ok h.tag s.admissionCounter.toNat)).issueRead)

/-- SET_INPUT on a line that no live capture names replaces its two settings and drops its candidate; an
enabled line takes the raw level of this tick as its filtered level, a disabled one keeps its own. That
raw level is the line's sample of this tick (log 7). -/
def Obligations.SetInputRestartsTheFilter : Prop :=
  ∀ (s : State) (h : Header) (b : SetInputBody) (i : Fin 4) (l : Fin 8) (e : Bool), s.Fetching →
    s.Grants h i → h.flags = 0 → h.reserved = 0 → h.line.toNat = l.val → enabledOfCode b.enabled = some e →
    b.filterLength.toNat ≤ 255 → (∀ k, ∀ c ∈ s.capture k, c.line ≠ l) →
    exec (.setInput h b) s = .next (((s.accepted.setInput l
        { s.input l with
          enabled := e, filterLength := b.filterLength.toNat, candidate := none
          filtered := if e then s.rawNow l else (s.input l).filtered
          raw := s.rawNow l, sampled := true }).stageFree i
        (s.consumed.answer .ok h.tag s.admissionCounter.toNat)).issueRead)

/-- DEFINE_RING of CR1 to CR3 with a size puts the ring in service with the commanded settings, index 0,
phase 1, head 0 and a fresh notifier: an UNDEFINED ring starts empty, a FAULTED ring keeps its queue and its
owed count, an ACTIVE one must have neither. With size 0 it makes a ring without staged records and owed
places UNDEFINED, but not its own target. The answer's mask is as it stands after the change. -/
def Obligations.DefineRingPutsARingInService : Prop :=
  ∀ (s : State) (h : Header) (b : DefineRingBody) (i k : Fin 4), s.Fetching → s.Grants h i →
    h.flags = 0 → h.reserved = 0 → b.number.toNat = k.val → k ≠ 0 →
    (b.size.toNat ∈ [16, 32, 64, 128, 256, 512, 1024, 2048, 4096] → b.base.toNat % 64 = 0 →
      b.level.toNat ≤ 3 → 1 ≤ b.threshold.toNat → b.threshold.toNat ≤ 64 → b.holdoff.toNat ≤ 65535 →
      ((s.ring k).state ≠ .active ∨ (s.ring k).staged = [] ∧ (s.ring k).owed = 0) →
      exec (.defineRing h b) s = .next (((s.accepted.setRing k
          { state := .active, base := b.base, size := b.size.toNat, writeIndex := 0, phase := true, hostHead := 0
            staged := if (s.ring k).state = .undefined then [] else (s.ring k).staged
            owed := if (s.ring k).state = .undefined then 0 else (s.ring k).owed
            level := Fin.ofNat 4 b.level.toNat, threshold := b.threshold.toNat, holdoff := b.holdoff.toNat
            unnotified := 0, timer := .stopped, awaiting := false }).stageFree i
          { s.consumed.answer .ok h.tag s.admissionCounter.toNat with
            mask := (s.setRing k { s.ring k with state := .active }).faultMask }).issueRead))
    ∧ (b.size = 0 → i ≠ k →
      ((s.ring k).state = .undefined ∨ (s.ring k).staged = [] ∧ (s.ring k).owed = 0) →
      exec (.defineRing h b) s = .next (((s.accepted.setRing k Ring.undefined).stageFree i
          { s.consumed.answer .ok h.tag s.admissionCounter.toNat with
            mask := (s.setRing k Ring.undefined).faultMask }).issueRead))

/-- DEFINE_RING is refused RING_BUSY: of an ACTIVE ring while the ring has a staged record or owes a place
beside the DEFINE_RING's own, and whenever it would undefine its own target; of a FAULTED ring when it would
undefine it while it has a staged record or owes a place. -/
def Obligations.DefineRingOfABusyRingIsRefused : Prop :=
  ∀ (s : State) (h : Header) (b : DefineRingBody) (i k : Fin 4), s.Fetching → s.Grants h i →
    h.flags = 0 → h.reserved = 0 → b.number.toNat = k.val → k ≠ 0 →
    (b.size = 0 ∨ b.size.toNat ∈ [16, 32, 64, 128, 256, 512, 1024, 2048, 4096] ∧ b.base.toNat % 64 = 0
      ∧ b.level.toNat ≤ 3 ∧ 1 ≤ b.threshold.toNat ∧ b.threshold.toNat ≤ 64 ∧ b.holdoff.toNat ≤ 65535) →
    ((s.ring k).state = .active
        ∧ ((s.ring k).staged ≠ [] ∨ (s.ring k).owed ≠ 0 ∨ b.size = 0 ∧ i = k)
      ∨ (s.ring k).state = .faulted ∧ b.size = 0 ∧ ((s.ring k).staged ≠ [] ∨ (s.ring k).owed ≠ 0)) →
    exec (.defineRing h b) s =
      .next (s.consumed.stageFree i (s.consumed.answer .ringBusy h.tag 0)).issueRead

/-- The conditions that every START_TRAIN below meets: its fields are in range, its tag is new and slot
`k` is the lowest FREE one (R45, R46). -/
abbrev StartTrainReady (s : State) (h : Header) (b : StartTrainBody) (l : Fin 16) (p : EndPolicy)
    (k : Fin 32) : Prop :=
  (h.flags = 0 ∨ h.flags = 1) ∧ h.reserved = 0 ∧ h.tag ≠ 0 ∧ h.line.toNat = l.val
    ∧ 1 ≤ b.segmentCount.toNat ∧ b.segmentCount.toNat ≤ 8
    ∧ (∀ w ∈ segmentWords b, (segmentLevel w).isSome = true ∧ 4 ≤ segmentDuration w)
    ∧ ((∀ w ∈ segmentWords b, segmentLevel w ≠ some .carrier)
        ∨ (s.line l).highWidth ≠ 0 ∧ (s.line l).period ≠ 0)
    ∧ policyOfCode b.endPolicy = some p ∧ (∀ e ∈ s.tagMap, e.1 ≠ h.tag) ∧ s.freeTrain = some k
    ∧ (s.line l).drive ≠ .off

/-- The train that a START_TRAIN fills its slot with (R42, R48). -/
def newTrainOf (h : Header) (b : StartTrainBody) (l : Fin 16) (p : EndPolicy) (i : Fin 4) (ts : TrainState)
    (cond : StartCondition) (late : Bool) (start : Option Time) : Train :=
  { state := ts, tag := h.tag, line := l, ring := i, segments := segmentsOf b
    repeatCount := b.repeatCount.toNat, repsDone := 0, index := 0, start := cond, endPolicy := p
    lateOk := h.flags.getLsbD 0, late := late, startTime := start, stopKind := .none }

/-- The state with the train admitted into slot `k`: on the admission list, in the tag map, its place owed
on ring `i`, and its line claimed as `line` says (R34, R48). -/
def admittedTrain (s : State) (h : Header) (i : Fin 4) (k : Fin 32) (t : Train) (line : Line) : State :=
  ((((s.accepted.reserve i).setTrain k (some t)).join (.train k)).addTag h.tag (.train k)).setLine t.line line

/-- START_TRAIN with an AT or NOW start on a free line is admitted ARMED with its START entry: AT its time
when that leaves the lead of 40 ticks, at now + 40 and late when it does not and late-ok is set, and at
now + 40 for NOW. -/
def Obligations.StartTrainIsArmed : Prop :=
  ∀ (s : State) (h : Header) (b : StartTrainBody) (i : Fin 4) (l : Fin 16) (p : EndPolicy) (k : Fin 32),
    s.Fetching → s.Grants h i → StartTrainReady s h b l p k → (s.line l).owner = none →
    (b.startKind = 0 → b.time.toNat < 2 ^ 48 →
      40 ≤ (b.time.setWidth 48 - s.deviceTime).toNat → (b.time.setWidth 48 - s.deviceTime).toNat < 2 ^ 47 →
      exec (.startTrain h b) s = .next (((admittedTrain s h i k
        (newTrainOf h b l p i .armed .atTime false (some (b.time.setWidth 48)))
        { s.line l with owner := some k }).insert (.train k) .start (b.time.setWidth 48)).issueRead))
    ∧ (b.startKind = 0 → b.time.toNat < 2 ^ 48 → h.flags = 1 →
      ((b.time.setWidth 48 - s.deviceTime).toNat < 40 ∨ 2 ^ 47 ≤ (b.time.setWidth 48 - s.deviceTime).toNat) →
      exec (.startTrain h b) s = .next (((admittedTrain s h i k
        (newTrainOf h b l p i .armed .atTime true (some (s.deviceTime + 40)))
        { s.line l with owner := some k }).insert (.train k) .start (s.deviceTime + 40)).issueRead))
    ∧ (b.startKind = 0 → b.time.toNat < 2 ^ 48 → h.flags = 0 →
      ((b.time.setWidth 48 - s.deviceTime).toNat < 40 ∨ 2 ^ 47 ≤ (b.time.setWidth 48 - s.deviceTime).toNat) →
      exec (.startTrain h b) s =
        .next (s.consumed.stageFree i (s.consumed.answer .startPast h.tag 0)).issueRead)
    ∧ (b.startKind = 1 → b.time = 0 →
      exec (.startTrain h b) s = .next (((admittedTrain s h i k
        (newTrainOf h b l p i .armed .now false (some (s.deviceTime + 40)))
        { s.line l with owner := some k }).insert (.train k) .start (s.deviceTime + 40)).issueRead))

/-- START_TRAIN after another train's end is admitted WAITING, with no calendar entry: as owner of a free
line, or as successor on its predecessor's own line. After a capture's edge it is admitted WAITING as
owner, while the capture has not taken that many edges and can still reach it. -/
def Obligations.StartTrainWaits : Prop :=
  ∀ (s : State) (h : Header) (b : StartTrainBody) (i : Fin 4) (l : Fin 16) (p : EndPolicy) (k : Fin 32),
    s.Fetching → s.Grants h i → StartTrainReady s h b l p k → b.time.toNat < 2 ^ 32 → b.reference ≠ 0 →
    (∀ j, b.startKind = 3 → s.lookup b.reference = some (.train j) →
      ((s.line l).owner = none →
        exec (.startTrain h b) s = .next (admittedTrain s h i k
          (newTrainOf h b l p i .waiting (.afterEnd b.reference b.time.toNat) false none)
          { s.line l with owner := some k }).issueRead)
      ∧ (∀ o u, (s.line l).owner = some o → (s.line l).successor = none → s.train o = some u →
        u.tag = b.reference →
        exec (.startTrain h b) s = .next (admittedTrain s h i k
          (newTrainOf h b l p i .waiting (.afterEnd b.reference b.time.toNat) false none)
          { s.line l with successor := some k }).issueRead))
    ∧ (∀ j c, b.startKind = 2 → s.lookup b.reference = some (.capture j) → s.capture j = some c →
      40 ≤ b.time.toNat → b.edgeNumber ≠ 0 → (c.edgeLimit = 0 ∨ b.edgeNumber.toNat ≤ c.edgeLimit) →
      c.taken < b.edgeNumber.toNat → (s.line l).owner = none →
      exec (.startTrain h b) s = .next (admittedTrain s h i k
        (newTrainOf h b l p i .waiting (.afterEdge b.reference b.edgeNumber.toNat b.time.toNat) false none)
        { s.line l with owner := some k }).issueRead)

/-- ARM_CAPTURE on an enabled line is admitted into the lowest FREE slot: PENDING with an OPEN entry when
its open time lies ahead, and otherwise OPEN at once, with a CLOSE entry when it has a close time; late-open
says that a given open time was past. -/
def Obligations.ArmCaptureOpensNowOrLater : Prop :=
  ∀ (s : State) (h : Header) (b : ArmCaptureBody) (i : Fin 4) (l : Fin 8) (k : Fin 16) (e : EdgeSelect)
    (m : ReportMode), s.Fetching → s.Grants h i → h.flags = 0 → h.reserved = 0 → h.tag ≠ 0 →
    h.line.toNat = l.val → selectOfCode b.edgeSelect = some e → modeOfCode b.reportMode = some m →
    b.reservedA = 0 → b.reservedB = 0 → b.openTime.toNat < 2 ^ 48 → b.closeTime.toNat < 2 ^ 48 →
    (∀ x ∈ s.tagMap, x.1 ≠ h.tag) → s.freeCapture = some k → (s.input l).enabled = true →
    let opens : Time := b.openTime.setWidth 48
    let closes : Time := b.closeTime.setWidth 48
    let later : Bool := decide (opens ≠ 0) && isFuture s.deviceTime opens
    let base : State := (((s.accepted.reserve i).setCapture k (some
      { state := if later then .pending else .opened, tag := h.tag, line := l, ring := i, edgeSelect := e
        reportMode := m, openTime := opens, effectiveOpen := if later then opens else s.deviceTime
        closeTime := closes, edgeLimit := b.edgeLimit.toNat, taken := 0, dropped := 0, firstStamp := none
        lateOpen := decide (opens ≠ 0) && !isFuture s.deviceTime opens })).join (.capture k)).addTag h.tag
        (.capture k)
    (later = true → (closes = 0 ∨ isFuture opens closes = true) →
      exec (.armCapture h b) s = .next (base.insert (.capture k) .openWindow opens).issueRead)
    ∧ (later = false → closes = 0 → exec (.armCapture h b) s = .next base.issueRead)
    ∧ (later = false → closes ≠ 0 → isFuture s.deviceTime closes = true →
      exec (.armCapture h b) s = .next (base.insert (.capture k) .closeWindow closes).issueRead)

/-- CANCEL AT_PERIOD_END of a RUNNING train moves it to STOPPING, with the stop kind that the cascade flag
asks for, and changes nothing of a STOPPING one; it is answered OK. -/
def Obligations.CancelAtPeriodEndOnlyStops : Prop :=
  ∀ (s : State) (h : Header) (i : Fin 4) (k : Fin 32) (t : Train), s.Fetching → s.Grants h i →
    (h.flags = 0x04 ∨ h.flags = 0x06) → h.reserved = 0 → h.tag ≠ 0 → s.lookup h.tag = some (.train k) →
    s.train k = some t →
    (t.state = .running → exec (.cancel h) s = .next (((s.accepted.setTrain k
        (some { t with state := .stopping, stopKind := if h.flags = 0x06 then .cascade else .plain })).stageFree
        i (s.consumed.answer .ok h.tag s.admissionCounter.toNat)).issueRead))
    ∧ (t.state = .stopping → exec (.cancel h) s = .next (s.accepted.stageFree i
        (s.consumed.answer .ok h.tag s.admissionCounter.toNat)).issueRead)

/-- The TRAIN_END record of train `t` at the tick and head of `s`, field by field (R59). -/
def trainEndOf (s : State) (t : Train) (st : Status) (cascaded : Bool) (count : Nat) : Completion :=
  { kind := .trainEnd, status := st, late := t.late, lateOpen := false, cascade := cascaded
    direction := .rising, mask := 0, tag := t.tag, sqHead := s.head, time := s.deviceTime
    time2 := if t.state = .running ∨ t.state = .stopping then t.startTime.getD s.deviceTime else s.deviceTime
    count := count, dropped := 0 }

/-- The state with the train of slot `k` ended: its entry, list place and tag gone, its line as the owner's
or successor's end leaves it, its record staged in the place it was owed, its slot FREE (R56). -/
def endedTrain (s : State) (k : Fin 32) (t : Train) (st : Status) (record : Completion) : State :=
  (((((s.leave (.train k)).dropTag (.train k)).setLine t.line
    ((s.line t.line).trainEnded k st t.endPolicy)).stageFinal t.ring record).setTrain k none)

/-- The WAITING trains whose start condition satisfies `p`, oldest first (R97). -/
def oldestWaiting (s : State) (p : StartCondition → Bool) : List (Fin 32) :=
  s.admission.filterMap fun o => match o with
    | .train j => if (s.train j).any (fun u => decide (u.state = .waiting) && p u.start) then some j else none
    | _ => none

/-- The state with the train of slot `j` released by the end of the train it waited on (R107): with offset 0
it is RUNNING from this tick with its segment 0 on its line and its BOUNDARY at that segment's end; with any
other it is ARMED with its START at this tick plus the offset, and its line rests. -/
def releasedTrain (s : State) (j : Fin 32) : State :=
  match s.train j with
  | none => s
  | some u =>
    let start := s.deviceTime + BitVec.ofNat 48 u.start.offset
    if u.start.offset = 0 then
      let run := s.setTrain j (some { u with state := .running, index := 0, startTime := some s.deviceTime })
      match u.segments[0]? with
      | none => run
      | some g =>
        (run.setLine u.line
          { s.line u.line with
            present := g.level
            modulator := if g.level = LineLevel.carrier then
              some { position := 0, high := decide (0 < (s.line u.line).highWidth) } else none }).insert
          (.train j) .boundary (s.deviceTime + BitVec.ofNat 48 g.duration)
    else (s.setTrain j (some { u with state := .armed, startTime := some start })).insert (.train j) .start start

/-- The FENCE_END record of a fence at the tick and head of `s`, field by field (R140). -/
def fenceEndOf (s : State) (tag : Tag) (st : Status) (acceptedAt : Time) (count : Nat) : Completion :=
  { kind := .fenceEnd, status := st, late := false, lateOpen := false, cascade := false
    direction := .rising, mask := 0, tag := tag, sqHead := s.head, time := s.deviceTime
    time2 := acceptedAt, count := count, dropped := 0 }

/-- The state with the end of one work reported to a waiting fence: its count falls by one, and in RUNNING the
last end ends it OK, with its TIMEOUT and list place gone, its FENCE_END staged in the place it was owed and the
next read issued (R138). Without a fence nothing changes. -/
def fenceTold (s : State) : State :=
  match s.fetch with
  | .fenced f =>
    if f.count ≤ 1 ∧ s.device = .running then State.issueRead
      { (s.leave .fence).stageFinal f.ring (fenceEndOf s f.tag .ok f.acceptedAt 0) with fetch := .idle }
    else { s with fetch := .fenced { f with count := f.count - 1 } }
  | _ => s

/-- The state with the train of slot `k` ended and every train that waited on its end released, oldest first,
and then the end reported to a waiting fence: a successor finds itself the owner of the line (R56, R107, R138). -/
def endedAndReleased (s : State) (k : Fin 32) (t : Train) (st : Status) (record : Completion) : State :=
  let e := endedTrain s k t st record
  fenceTold ((oldestWaiting e (StartCondition.onEnd t.tag)).foldl releasedTrain e)

/-- Every train's offset is a number of 32 bits (R45), as in every state with sound entries. -/
abbrev OffsetsInRange (s : State) : Prop := ∀ j, ∀ u ∈ s.train j, u.start.offset < 2 ^ 32

/-- CANCEL IMMEDIATE ends a live train CANCELLED at this tick, whatever its state, and CANCEL AT_PERIOD_END
does so when the train is WAITING or ARMED: its TRAIN_END is staged, the trains that waited on its end are
released, and the CANCEL's own answer follows. This is every such CANCEL without a cascade, and with a cascade
that finds no train waiting. -/
def Obligations.CancelImmediateEndsTheTrain : Prop :=
  ∀ (s : State) (h : Header) (i : Fin 4) (k : Fin 32) (t : Train), s.Fetching → s.Grants h i →
    (h.flags = 0x00 ∨ h.flags = 0x02
      ∨ (h.flags = 0x04 ∨ h.flags = 0x06) ∧ (t.state = .waiting ∨ t.state = .armed)) →
    h.reserved = 0 → h.tag ≠ 0 → s.lookup h.tag = some (.train k) → s.train k = some t → OffsetsInRange s →
    ((h.flags = 0x00 ∨ h.flags = 0x04) ∧ ¬(t.state = .stopping ∧ t.stopKind = .cascade)
      ∨ ∀ j, ∀ u ∈ s.train j, u.start.onEnd t.tag = false) →
    exec (.cancel h) s = .next ((endedAndReleased s.accepted k t .cancelled
        (trainEndOf s.consumed t .cancelled false t.repsDone)).stageFree i
        (s.consumed.answer .ok h.tag s.admissionCounter.toNat)).issueRead

/-- The CAPTURE_END record of capture `c` at the tick and head of `s`, field by field (R92). -/
def captureEndOf (s : State) (c : Capture) (st : Status) : Completion :=
  { kind := .captureEnd, status := st, late := false, lateOpen := c.lateOpen, cascade := false
    direction := .rising, mask := 0, tag := c.tag, sqHead := s.head, time := s.deviceTime
    time2 := c.firstStamp.getD s.deviceTime, count := c.taken, dropped := c.dropped }

/-- The state with the train of slot `j` ended TRIGGER_LOST, and the trains that waited on its end released
(R106). -/
def lostTrain (s : State) (j : Fin 32) : State :=
  match s.train j with
  | none => s
  | some u => endedAndReleased s j u .triggerLost (trainEndOf s u .triggerLost false u.repsDone)

/-- The state with the capture of slot `k` ended: its entry, list place and tag gone, its record staged in the
place it was owed, every train still waiting on one of its edges lost, oldest first, its slot FREE, and its end
reported to a waiting fence (R91, R106, R138). -/
def endedCapture (s : State) (k : Fin 16) (c : Capture) (record : Completion) : State :=
  let e := ((s.leave (.capture k)).dropTag (.capture k)).stageFinal c.ring record
  fenceTold (((oldestWaiting e (StartCondition.onCapture c.tag)).foldl lostTrain e).setCapture k none)

/-- CANCEL ends a live capture CANCELLED at this tick, whatever its mode and cascade flag: its CAPTURE_END is
staged, the trains still waiting on its edges end TRIGGER_LOST, and the CANCEL's own answer follows. -/
def Obligations.CancelEndsTheCapture : Prop :=
  ∀ (s : State) (h : Header) (i : Fin 4) (k : Fin 16) (c : Capture), s.Fetching → s.Grants h i →
    (h.flags = 0x00 ∨ h.flags = 0x02 ∨ h.flags = 0x04 ∨ h.flags = 0x06) → h.reserved = 0 → h.tag ≠ 0 →
    s.lookup h.tag = some (.capture k) → s.capture k = some c → OffsetsInRange s →
    exec (.cancel h) s = .next ((endedCapture s.accepted k c (captureEndOf s.consumed c .cancelled)).stageFree i
        (s.consumed.answer .ok h.tag s.admissionCounter.toNat)).issueRead

/-- The train of slot `j` waits on the end of the train with tag `g` (R97). -/
def WaitsOn (s : State) (g : Tag) (j : Fin 32) : Prop :=
  ∃ u, s.train j = some u ∧ u.state = .waiting ∧ u.start.onEnd g = true

/-- The train of slot `x` is that of slot `a`, or below it in the waiting relation. -/
def InTreeOf (s : State) (a x : Fin 32) : Prop := x = a ∨ ∃ u, s.train a = some u ∧ s.Below u.tag x

/-- The trains stand depth first: each before the train it waited on, and of two that waited on one train the
older with every train below it before the younger with every train below that (R111). -/
def DepthFirst (s : State) (ends : List (Fin 32)) : Prop :=
  ends.Pairwise fun x y =>
    (∀ u, s.train x = some u → ¬WaitsOn s u.tag y)
    ∧ ∀ g a b, WaitsOn s g a → WaitsOn s g b → s.rank (.train a) < s.rank (.train b) →
      InTreeOf s b x → ¬InTreeOf s a y

/-- What an end in cascade of the train of slot `k` leaves in `r`, from `s` (R111, R112). The trains that end
are those below `k` in the waiting relation, each once, depth first, and `k` last; none is released. Their
records stand on their rings in that order, each in the place it was owed, CANCELLED with the cascade flag,
`record` after them; then, when these are the last works a waiting fence counts, its FENCE_END, and `more` last.
Otherwise the fence's count falls by one for each. Their entries, list places and tags are gone, and each line
is as the ends on it leave it (`Line.trainEnded`). Nothing else changes. The order is computed beforehand, to
the depth of 32 trains (log 26). -/
def CascadeLeaves (s r : State) (k : Fin 32) (t : Train) (record : Completion)
    (more : Fin 4 → List Completion) : Prop :=
  let ends := s.cascadeOrder 32 t.tag
  let ended := ends ++ [k]
  let fenceOver := s.fetch.waiting.filter fun f => decide (f.count ≤ ended.length)
  let stays : Owner → Bool := fun o =>
    !(ended.any fun j => decide (o = .train j)) && !(fenceOver.isSome && decide (o = .fence))
  ends.Nodup ∧ (∀ j, j ∈ ends ↔ s.Below t.tag j) ∧ DepthFirst s ends
    ∧ (∀ j, r.train j = if j ∈ ended then none else s.train j)
    ∧ (∀ m, r.ring m =
      { s.ring m with
        staged := (s.ring m).staged
          ++ ends.filterMap (fun j => (s.train j).bind fun u =>
            if u.ring = m then some (trainEndOf s u .cancelled true u.repsDone) else none)
          ++ (if t.ring = m then [record] else [])
          ++ fenceOver.toList.filterMap (fun f =>
            if f.ring = m then some (fenceEndOf s f.tag .ok f.acceptedAt 0) else none)
          ++ more m
        owed := (s.ring m).owed - ended.countP (fun j => Train.owes m (s.train j))
          - fenceOver.toList.countP fun f => decide (f.ring = m) })
    ∧ (∀ l, r.line l = ended.foldl (fun x j => match s.train j with
        | some u => if u.line = l then x.trainEnded j (if j = k then record.status else .cancelled) u.endPolicy
          else x
        | none => x) (s.line l))
    ∧ r =
      { s with
        trains := r.trains, rings := r.rings, lines := r.lines
        admission := s.admission.filter stays
        tagMap := s.tagMap.filter fun e => !(ended.any fun j => decide (e.2 = .train j))
        calendar := s.calendar.filter fun e => stays e.owner
        fetch := match s.fetch with
          | .fenced f =>
            if f.count ≤ ended.length then .idle else .fenced { f with count := f.count - ended.length }
          | other => other }

/-- A CANCEL with cascade that ends its train, and a CANCEL IMMEDIATE of a train STOPPING in cascade, end in
cascade: every train below it CANCELLED with the cascade flag, then the train itself CANCELLED, then the
CANCEL's own answer, and the next read follows. So does the last BOUNDARY of a train STOPPING in cascade, which
ends STOPPED with one repetition more; where that ends a waiting fence the next read follows. The order is
log 26's. -/
def Obligations.CascadeEndsEveryWaiter : Prop :=
  ∀ (s : State) (k : Fin 32) (t : Train), s.WorksSound → s.TagsSound → s.ChainsSound → s.train k = some t →
    (∀ (h : Header) (i : Fin 4), s.Fetching → s.Grants h i →
      (h.flags = 0x02 ∨ h.flags = 0x06 ∧ (t.state = .waiting ∨ t.state = .armed)
        ∨ h.flags = 0x00 ∧ t.state = .stopping ∧ t.stopKind = .cascade) →
      h.reserved = 0 → h.tag ≠ 0 → s.lookup h.tag = some (.train k) →
      ∃ r, exec (.cancel h) s = .next r.issueRead
        ∧ CascadeLeaves s.accepted r k t (trainEndOf s.consumed t .cancelled false t.repsDone)
          (fun m => if i = m then [s.consumed.answer .ok h.tag s.admissionCounter.toNat] else []))
    ∧ (∀ rest, DueNow s (.train k) .boundary rest →
      t.state = .stopping → t.stopKind = .cascade → t.segments.length ≤ t.index + 1 →
      let done := if t.repeatCount = 0 then min (t.repsDone + 1) (2 ^ 32 - 1) else t.repsDone + 1
      ∃ r, exec (.boundaryDelivered k) s = .next (if s.fetch.waiting.isSome ∧ r.fetch = .idle then r.issueRead else r)
        ∧ CascadeLeaves s r k t (trainEndOf s t .stopped false done) (fun _ => []))

/-- FENCE with no work live ends OK at once with count 0, and the next read follows. With works live it
waits for all of them, joins the admission list, holds its place on its ring and its TIMEOUT entry, and no
read is issued. -/
def Obligations.FenceEndsOrHoldsTheStream : Prop :=
  ∀ (s : State) (h : Header) (timeout : BitVec 64) (i : Fin 4), s.Fetching → s.Grants h i →
    h.flags = 0 → h.reserved = 0 → timeout.toNat ≠ 0 → timeout.toNat < 2 ^ 32 →
    (s.tagMap = [] → exec (.fence h timeout) s = .next (s.accepted.stageFree i
        (fenceEndOf s.consumed h.tag .ok s.deviceTime 0)).issueRead)
    ∧ (s.tagMap ≠ [] → exec (.fence h timeout) s = .next
        { ((s.accepted.reserve i).join .fence).insert .fence .timeout
            (s.deviceTime + BitVec.ofNat 48 timeout.toNat) with
          fetch := .fenced
            { count := s.tagMap.length, ring := i, acceptedAt := s.deviceTime, tag := h.tag } })

/-- The answer of a list of checks in order: the status of the first whose condition of failure holds. -/
def FirstThatFails : List (Prop × Status) → Option Status → Prop
  | [], answer => answer = none
  | (fails, st) :: rest, answer => fails ∧ answer = some st ∨ ¬fails ∧ FirstThatFails rest answer

/-- A flag outside `defined` is set, or a reserved byte is not zero (R127). -/
def headerBad (h : Header) (defined : BitVec 8) : Prop :=
  h.reserved ≠ 0 ∨ ∃ b : Fin 8, h.flags.getLsbD b.val = true ∧ defined.getLsbD b.val = false

/-- The ring check (R122). -/
def ringChecks (s : State) (h : Header) : List (Prop × Status) :=
  [(3 < h.ring.toNat ∨ ∃ k : Fin 4, h.ring.toNat = k.val ∧ (s.ring k).state = .undefined, .noRing),
    (∃ k : Fin 4, h.ring.toNat = k.val ∧ (s.ring k).state = .faulted, .ringFault)]

/-- The words of a START_TRAIN's segments that are examined (R45). -/
def wordsOf (b : StartTrainBody) : List (BitVec 32) := b.segments.toList.take b.segmentCount.toNat

/-- The start kind's own field conditions fail (R45). -/
def startBad (b : StartTrainBody) : Prop :=
  3 < b.startKind.toNat ∨ b.startKind = 0 ∧ 2 ^ 48 ≤ b.time.toNat ∨ b.startKind = 1 ∧ b.time ≠ 0
    ∨ b.startKind = 2 ∧ (2 ^ 32 ≤ b.time.toNat ∨ b.time.toNat < 40 ∨ b.edgeNumber = 0 ∨ b.reference = 0)
    ∨ b.startKind = 3 ∧ (2 ^ 32 ≤ b.time.toNat ∨ b.reference = 0)

/-- The field check of a START_TRAIN fails (R32, R45). -/
def trainBad (s : State) (h : Header) (b : StartTrainBody) : Prop :=
  headerBad h 0x01 ∨ h.tag = 0 ∨ 15 < h.line.toNat ∨ b.segmentCount = 0 ∨ 8 < b.segmentCount.toNat
    ∨ (∃ w ∈ wordsOf b, w.extractLsb' 30 2 = 3#2 ∨ w.toNat % 2 ^ 30 < 4) ∨ 1 < b.endPolicy.toNat ∨ startBad b
    ∨ ∃ l : Fin 16, h.line.toNat = l.val ∧ ((s.line l).highWidth = 0 ∨ (s.line l).period = 0)
      ∧ ∃ w ∈ wordsOf b, w.extractLsb' 30 2 = 2#2

/-- The field check of an ARM_CAPTURE fails (R81, R82). -/
def captureBad (s : State) (h : Header) (b : ArmCaptureBody) : Prop :=
  let opens : Time := b.openTime.setWidth 48
  let closes : Time := b.closeTime.setWidth 48
  let effective := if opens ≠ 0 ∧ isFuture s.deviceTime opens = true then opens else s.deviceTime
  headerBad h 0 ∨ h.tag = 0 ∨ 7 < h.line.toNat ∨ 2 < b.edgeSelect.toNat ∨ 1 < b.reportMode.toNat
    ∨ b.reservedA ≠ 0 ∨ b.reservedB ≠ 0 ∨ 2 ^ 48 ≤ b.openTime.toNat ∨ 2 ^ 48 ≤ b.closeTime.toNat
    ∨ closes ≠ 0 ∧ isFuture effective closes = false

/-- The ring that a DEFINE_RING names cannot change now; `i` is the target, where the command's own place is
owed (R164 to R166). -/
def ringCannotChange (s : State) (i : Fin 4) (b : DefineRingBody) : Prop :=
  ∃ k : Fin 4, b.number.toNat = k.val
    ∧ ((s.ring k).state = .active
        ∧ ((s.ring k).staged ≠ [] ∨ 1 < (s.ring k).owed ∨ (s.ring k).owed = 1 ∧ i ≠ k ∨ b.size = 0 ∧ i = k)
      ∨ (s.ring k).state = .faulted ∧ b.size = 0 ∧ ((s.ring k).staged ≠ [] ∨ (s.ring k).owed ≠ 0))

/-- The checks from the tag check on that a START_TRAIN meets (R33, R47, R98 to R100). -/
def trainChecks (s : State) (h : Header) (b : StartTrainBody) : List (Prop × Status) :=
  [(∃ e ∈ s.tagMap, e.1 = h.tag, .tagInUse), (∀ k, s.train k ≠ none, .noSlot),
    (∃ l : Fin 16, h.line.toNat = l.val ∧ (s.line l).drive = .off, .lineOff),
    (∃ l : Fin 16, h.line.toNat = l.val ∧ ∃ o ∈ (s.line l).owner, ¬((s.line l).successor = none
      ∧ b.startKind = 3 ∧ ∃ u ∈ s.train o, u.tag = b.reference), .lineBusy),
    (b.startKind = 2 ∧ ¬∃ k, s.lookup b.reference = some (.capture k) ∧ s.capture k ≠ none, .noSuchTag),
    (b.startKind = 3 ∧ ¬∃ k, s.lookup b.reference = some (.train k), .noSuchTag),
    (b.startKind = 2 ∧ ∃ k, s.lookup b.reference = some (.capture k) ∧ ∃ c ∈ s.capture k,
      c.edgeLimit ≠ 0 ∧ c.edgeLimit < b.edgeNumber.toNat, .badField),
    (b.startKind = 2 ∧ ∃ k, s.lookup b.reference = some (.capture k) ∧ ∃ c ∈ s.capture k,
      b.edgeNumber.toNat ≤ c.taken, .triggerPassed),
    (b.startKind = 0 ∧ h.flags.getLsbD 0 = false ∧ ((b.time.setWidth 48 - s.deviceTime).toNat < 40
      ∨ 2 ^ 47 ≤ (b.time.setWidth 48 - s.deviceTime).toNat), .startPast)]

/-- The checks that a record meets, in the fixed order, each with its condition of failure and its status; `i`
is the target ring (R126). -/
def checksOf (s : State) (i : Fin 4) : Submission → List (Prop × Status)
  | .unknown _ _ => [(True, .badKind)]
  | .nop h => (headerBad h 0, .badField) :: ringChecks s h
  | .readTime h => (headerBad h 0, .badField) :: ringChecks s h
  | .defineRing h b =>
    (headerBad h 0 ∨ b.number = 0 ∨ 3 < b.number.toNat ∨ b.size ≠ 0
      ∧ (b.size.toNat ∉ [16, 32, 64, 128, 256, 512, 1024, 2048, 4096] ∨ b.base.toNat % 64 ≠ 0
        ∨ 3 < b.level.toNat ∨ b.threshold = 0 ∨ 64 < b.threshold.toNat ∨ 65535 < b.holdoff.toNat), .badField)
      :: ringChecks s h ++ [(ringCannotChange s i b, .ringBusy)]
  | .setOutput h b =>
    (headerBad h 0 ∨ 15 < h.line.toNat ∨ 2 < b.drive.toNat ∨ 1 < b.idle.toNat ∨ 3 < b.fault.toNat
      ∨ ¬(b.highWidth = 0 ↔ b.period = 0) ∨ b.period ≠ 0 ∧ b.period.toNat ≤ b.highWidth.toNat, .badField)
      :: ringChecks s h
        ++ [(∃ l : Fin 16, h.line.toNat = l.val ∧ (s.line l).owner ≠ none, .lineBusy)]
  | .setInput h b =>
    (headerBad h 0 ∨ 7 < h.line.toNat ∨ 1 < b.enabled.toNat ∨ 255 < b.filterLength.toNat, .badField)
      :: ringChecks s h ++ [(∃ k, ∃ c ∈ s.capture k, h.line.toNat = c.line.val, .lineBusy)]
  | .startTrain h b => (trainBad s h b, .badField) :: ringChecks s h ++ trainChecks s h b
  | .armCapture h b =>
    (captureBad s h b, .badField) :: ringChecks s h
      ++ [(∃ e ∈ s.tagMap, e.1 = h.tag, .tagInUse), (∀ k, s.capture k ≠ none, .noSlot),
        (∃ l : Fin 8, h.line.toNat = l.val ∧ (s.input l).enabled = false, .lineOff)]
  | .cancel h =>
    (headerBad h 0x0E ∨ h.tag = 0 ∨ h.flags.getLsbD 3 = true, .badField)
      :: ringChecks s h ++ [(∀ e ∈ s.tagMap, e.1 ≠ h.tag, .noSuchTag)]
  | .fence h timeout =>
    (headerBad h 0 ∨ timeout = 0 ∨ 2 ^ 32 ≤ timeout.toNat, .badField) :: ringChecks s h
  | .adjustTime h value =>
    (headerBad h 0 ∨ 2 ^ 48 ≤ value.toNat, .badField) :: ringChecks s h
      ++ [((∃ k, s.train k ≠ none) ∨ ∃ k, s.capture k ≠ none, .busy)]

/-- The checks of a record answer with the status of the first that fails in the fixed order. A record that
fails one is answered with that status on its target ring, and changes nothing else; the next read follows.
Its 64 bytes are those the read returned. -/
def Obligations.RefusedRecordIsOnlyAnswered : Prop :=
  (∀ (s : State) (i : Fin 4) (c : Submission), FirstThatFails (checksOf s i c) (s.check i c))
    ∧ ∀ (s : State) (data : Vector Byte 64) (i : Fin 4) (st : Status), s.Fetching →
      s.target (decodeSubmission data).header = i → (s.ring i).account < Config.accountPlaces →
      (s.consumed.reserve i).check i (decodeSubmission data) = some st →
      exec (.submissionReadReturn .outstanding data) s =
        .next (s.consumed.stageFree i (s.consumed.answer st (decodeSubmission data).header.tag 0)).issueRead

/-- A record whose target ring has no place left is held STALLED, unchecked, with its return tick, and head
has advanced. -/
def Obligations.RecordWithoutAPlaceStalls : Prop :=
  ∀ (s : State) (data : Vector Byte 64), s.Fetching →
    Config.accountPlaces ≤ (s.ring (s.target (decodeSubmission data).header)).account →
    exec (.submissionReadReturn .outstanding data) s = .next
      { s with
        head := (s.head + 1) % s.sqSize.toNat
        fetch := .stalled (decodeSubmission data) s.deviceTime }

/-- A record that passes every check names an ACTIVE ring, which is its target: the final of an accepted
command always goes to the ring it named. -/
def Obligations.AcceptedRecordNamesItsRing : Prop :=
  ∀ (s : State) (i : Fin 4) (c : Submission), s.check i c = none →
    ringNumber c.header.ring = some (s.target c.header) ∧ (s.ring (s.target c.header)).state = .active

/-! The host link -/

/-- The configuration that the registers hold is valid, condition by condition (R186). -/
abbrev ValidConfiguration (s : State) : Prop :=
  s.sqSize.toNat ∈ [16, 32, 64, 128, 256, 512, 1024] ∧ s.sqBase.toNat % 64 = 0
    ∧ 4 ≤ (s.cr0Cfg.extractLsb' 0 4).toNat ∧ (s.cr0Cfg.extractLsb' 0 4).toNat ≤ 12
    ∧ s.cr0Base.toNat % 64 = 0
    ∧ 1 ≤ (s.cr0Cfg.extractLsb' 8 7).toNat ∧ (s.cr0Cfg.extractLsb' 8 7).toNat ≤ 64
    ∧ s.cr0Cfg.extractLsb' 6 2 = 0#2 ∧ s.cr0Cfg.getLsbD 15 = false
    ∧ s.sqBase.toNat + 64 * s.sqSize.toNat ≤ 2 ^ 64
    ∧ s.cr0Base.toNat + 32 * 2 ^ (s.cr0Cfg.extractLsb' 0 4).toNat ≤ 2 ^ 64
    ∧ (s.sqBase.toNat + 64 * s.sqSize.toNat ≤ s.cr0Base.toNat
      ∨ s.cr0Base.toNat + 32 * 2 ^ (s.cr0Cfg.extractLsb' 0 4).toNat ≤ s.sqBase.toNat)

/-- ENABLE in OFF with a valid configuration enters RUNNING with CR0 made from its registers and head and
tail 0, and changes nothing else; with an invalid one only the last cause changes; in every other state it
changes nothing. -/
def Obligations.EnableTestsTheConfiguration : Prop :=
  ∀ s : State, s.Listening →
    (s.device = .off → ValidConfiguration s → exec .enable s = .next
      { s.setRing 0
          { state := .active, base := s.cr0Base, size := 2 ^ (s.cr0Cfg.extractLsb' 0 4).toNat
            writeIndex := 0, phase := true, hostHead := 0, staged := [], owed := 0
            level := (s.cr0Cfg.extractLsb' 4 2).toFin, threshold := (s.cr0Cfg.extractLsb' 8 7).toNat
            holdoff := (s.cr0Cfg.extractLsb' 16 16).toNat, unnotified := 0, timer := .stopped
            awaiting := false } with
        device := .running, lastCause := .none, discardedCount := 0, commandDropped := false
        head := 0, tail := 0 })
    ∧ (s.device = .off → ¬ValidConfiguration s →
      exec .enable s = .next { s with lastCause := .configInvalid })
    ∧ (s.device ≠ .off → exec .enable s = .next s)

/-- The order of the quiesce sweep: the works with an entry in the calendar's order, then the others in the order
of the admission list (R18). -/
def sweepOf (s : State) : List Owner :=
  s.calendar.map (·.owner) ++ s.admission.filter fun o => !decide (o ∈ s.calendar.map (·.owner))

/-- The ABORTED final of a work in the sweep, with its ring: TRAIN_END, CAPTURE_END, or FENCE_END with the count
that is left when the works swept before the fence have been reported (R71, R95, R141). -/
def abortedFinal (s : State) : Owner → Option (Fin 4 × Completion)
  | .train j => (s.train j).map fun u => (u.ring, trainEndOf s u .aborted false u.repsDone)
  | .capture j => (s.capture j).map fun c => (c.ring, captureEndOf s c .aborted)
  | .fence => s.fetch.waiting.map fun f =>
    (f.ring, fenceEndOf s f.tag .aborted f.acceptedAt (f.count - (sweepOf s).idxOf .fence))

/-- What is staged on ring `m` after the sweep: the records it had, then the finals of the works that report to
it, in sweep order (R169). -/
def sweptRecords (s : State) (m : Fin 4) : List Completion :=
  (s.ring m).staged ++ ((sweepOf s).filterMap (abortedFinal s)).filterMap fun x =>
    if x.1 = m then some x.2 else none

/-- QUIESCE in RUNNING ends every work: no train, capture, fence, entry, list place or tag is left and no
ring owes a place. Each live work has staged its final, ABORTED, on its ring in the order of the sweep. Every
line that had an owner rests ownerless at its idle level with its modulator stopped, and every other line is as
it was. While a record is staged or held the device is then QUIESCING with the limit started, and else OFF with
QUIESCED. Time, its capture, inputs, the six configuration registers and head and tail are as they were. -/
def Obligations.QuiesceEndsEveryWork : Prop :=
  ∀ s : State, s.Listening → s.device = .running → s.RingsSound → s.WorksSound → s.TagsSound →
    s.AccountsSound → s.EntriesSound → s.LinesSound →
    ∃ t, exec .quiesce s = .next t ∧ t.NoWork ∧ t.calendar = [] ∧ t.admission = [] ∧ t.tagMap = []
      ∧ (∀ i, (t.ring i).owed = 0)
      ∧ (∀ l, t.line l = if (s.line l).owner = none then s.line l else
        { s.line l with
          present := (match (s.line l).idle with | .low => LineLevel.low | .high => LineLevel.high)
          owner := none, successor := none, modulator := none })
      ∧ (((∃ m, sweptRecords s m ≠ []) ∨ s.holdsRecord = true) →
        t.device = .quiescing ∧ t.quiesceElapsed = 0 ∧ t.lastCause = s.lastCause
          ∧ t.fetch = (if s.holdsRecord then s.fetch else .idle)
          ∧ ∀ m, t.ring m = { s.ring m with staged := sweptRecords s m, owed := 0 })
      ∧ ((∀ m, sweptRecords s m = []) → s.holdsRecord = false →
        t.device = .off ∧ t.lastCause = .quiesced ∧ t.discardedCount = 0 ∧ t.commandDropped = false
          ∧ t.fetch = .idle ∧ ∀ m, t.ring m = Ring.undefined)
      ∧ t.deviceTime = s.deviceTime ∧ t.timeCapture = s.timeCapture ∧ t.inputs = s.inputs
      ∧ t.head = s.head ∧ t.tail = s.tail ∧ t.admissionCounter = s.admissionCounter
      ∧ t.sqBaseLo = s.sqBaseLo ∧ t.sqBaseHi = s.sqBaseHi ∧ t.sqSize = s.sqSize
      ∧ t.cr0BaseLo = s.cr0BaseLo ∧ t.cr0BaseHi = s.cr0BaseHi ∧ t.cr0Cfg = s.cr0Cfg

/-- QUIESCE with no work, no staged record and no held record is complete at the same tick: OFF with
QUIESCED, all rings UNDEFINED and closing messages marked, beside those still held from an earlier return to OFF
(log 30); an outstanding read is left on the link. In every other state than RUNNING it changes nothing. -/
def Obligations.QuiesceOfAnIdlePartIsComplete : Prop :=
  ∀ s : State, s.Listening →
    (s.device = .running → s.calendar = [] → s.admission = [] → (∀ i, (s.ring i).staged = []) →
      s.fetch.waiting = none → s.holdsRecord = false →
      exec .quiesce s = .next
        { s with
          fetch := .idle
          discardedReads := if s.fetch.outstanding.isSome then s.discardedReads + 1 else s.discardedReads
          closing := s.markClosing
          rings := Vector.replicate 4 Ring.undefined
          device := .off, lastCause := .quiesced, discardedCount := 0, commandDropped := false
          quiesceElapsed := 0 })
    ∧ (s.device ≠ .running → exec .quiesce s = .next s)

/-- SOFT_RESET, from any state and with either enable bit, gives every field its reset value but these: the
pins and their last samples, the clock, the link's configuration space, what the link has taken, and the
model's own fields. An outstanding read is left on the link. -/
def Obligations.SoftResetRestoresResetValues : Prop :=
  ∀ (s : State) (enableBit : Bool), s.Listening → exec (.softReset enableBit) s = .next
    { State.reset with
      refclk := s.refclk, resetHeld := s.resetHeld
      inputs := Vector.ofFn fun i =>
        { InputLine.reset with pin := (s.input i).pin, raw := (s.input i).raw, sampled := (s.input i).sampled }
      discardedReads := if s.fetch.outstanding.isSome then s.discardedReads + 1 else s.discardedReads
      busMastering := s.busMastering, msiEnabled := s.msiEnabled, vectorsEnabled := s.vectorsEnabled
      vectors := s.vectors, heldEvents := s.heldEvents, linkOut := s.linkOut, readData := s.readData
      choices := s.choices, pending := s.pending }

/-- POWER_ON_RESET and HOST_LINK_RESET, from any state, give the reset values with the link's own (log 10)
and hold the part; the pins with their last samples (log 7), the clock (log 8), the reads still on the link
(log 13) and the model's own fields (log 14) stay, and held host events are dropped (log 9). RESET_RELEASE lets
the count start at 0 with the next tick (logs 5 and 6); on a part not held it changes nothing. -/
def Obligations.HardResetsHoldThePart : Prop :=
  ∀ s : State,
    let held : State :=
      { State.reset with
        refclk := s.refclk, resetHeld := true
        inputs := Vector.ofFn fun i =>
          { InputLine.reset with
            pin := (s.input i).pin, raw := (s.input i).raw, sampled := (s.input i).sampled }
        discardedReads := if s.fetch.outstanding.isSome then s.discardedReads + 1 else s.discardedReads
        linkOut := s.linkOut, readData := s.readData, choices := s.choices, pending := s.pending }
    exec .powerOnReset s = .next held ∧ exec .hostLinkReset s = .next held
    ∧ (s.resetHeld = true → exec .resetRelease s = .next { s with resetHeld := false, timeRestart := true })
    ∧ (s.resetHeld = false → exec .resetRelease s = .next s)

/-- What a halt does to an output line, level by level (R41). -/
def haltedLine (l : Line) : Line :=
  { l with
    drive := if l.faultLevel = .off then .off else l.drive
    present := match l.faultLevel with
      | .low => .low
      | .high => .high
      | .hold => if l.present = .carrier then .low else l.present
      | .off => if l.present = .carrier then .low else l.present
    owner := none, successor := none, modulator := none }

/-- A held event once the outstanding read has been discarded: an answer of it is a discarded read's (R120). -/
def ofDiscardedRead : HostEvent → HostEvent
  | .readReturn _ record => .readReturn .discarded record
  | .readError _ => .readError .discarded
  | e => e

/-- The state that a fatal cause leaves: HALTED with that cause, every work, record and reservation
discarded, the lines at their fault levels, one halt message held in place of any other, and the rest as it
was (R194; log 17 for the closing messages). -/
def haltedWith (s : State) (c : Cause) : State :=
  { s with
    calendar := [], admission := [], tagMap := [], fetch := .idle
    discardedReads := if s.fetch.outstanding.isSome then s.discardedReads + 1 else s.discardedReads
    heldEvents := if s.fetch.outstanding.isSome then s.heldEvents.map ofDiscardedRead else s.heldEvents
    trains := Vector.replicate 32 none
    captures := Vector.replicate 16 none
    rings := Vector.replicate 4 Ring.undefined
    lines := Vector.ofFn fun i => haltedLine (s.line i)
    device := .halted, lastCause := c, discardedCount := 0, commandDropped := false, quiesceElapsed := 0
    haltMessage := true, closing := [] }

/-- SQTAIL_WRITE by device state: below the size it moves tail, and in RUNNING a read may follow; at the
size or above it halts in RUNNING and QUIESCING; in OFF and HALTED it is ignored. -/
def Obligations.SqTailWriteByDeviceState : Prop :=
  ∀ (s : State) (v : Word), s.Listening →
    (s.device = .running → v.toNat < s.sqSize.toNat →
      exec (.sqtailWrite v) s = .next (State.issueRead { s with tail := v.toNat }))
    ∧ (s.device = .quiescing → v.toNat < s.sqSize.toNat →
      exec (.sqtailWrite v) s = .next { s with tail := v.toNat })
    ∧ (s.device = .running ∨ s.device = .quiescing → s.sqSize.toNat ≤ v.toNat →
      exec (.sqtailWrite v) s = .next (haltedWith s .sqTailRange))
    ∧ (s.device = .off ∨ s.device = .halted → exec (.sqtailWrite v) s = .next s)

/-- CRHEAD_WRITE to an ACTIVE ring in RUNNING or QUIESCING: a head in the span releases its places and
re-arms the notifier; a head at the size or above, or past the span, halts the device for CR0 and faults
CR1 to CR3. Where no record is held STALLED nothing else follows. A record held for a ring that faults is tried
on CR0 at once: without a place there it stays held, with one it is answered there, in RUNNING with the status
of the first check that fails and in QUIESCING with ABORTED (log 25). To any other ring, and in OFF and HALTED,
the write is ignored. -/
def Obligations.CrHeadWriteIsChecked : Prop :=
  ∀ (s : State) (i : Fin 4) (v : Word), s.Listening →
    let r := s.ring i
    let span := fun x : Nat => (x + r.size - r.hostHead) % r.size
    ((s.device = .running ∨ s.device = .quiescing) → r.state = .active →
      (v.toNat < r.size → span v.toNat ≤ span r.writeIndex →
        exec (.crheadWrite i v) s = .next (s.setRing i
          { r with
            hostHead := v.toNat, awaiting := false
            timer := if r.unnotified = 0 then .stopped
              else if r.holdoff = 0 then .expired
              else .running (s.deviceTime + BitVec.ofNat 48 (256 * r.holdoff)) }))
      ∧ (r.size ≤ v.toNat →
        (i = 0 → exec (.crheadWrite i v) s = .next (haltedWith s .cr0HeadRange))
        ∧ (i ≠ 0 → s.holdsRecord = false →
          exec (.crheadWrite i v) s = .next (s.setRing i { r with state := .faulted })))
      ∧ (v.toNat < r.size → span r.writeIndex < span v.toNat →
        (i = 0 → exec (.crheadWrite i v) s = .next (haltedWith s .cr0HeadOverrun))
        ∧ (i ≠ 0 → s.holdsRecord = false →
          exec (.crheadWrite i v) s = .next (s.setRing i { r with state := .faulted }))))
    ∧ (∀ (d : Submission) (returned : Time), r.state = .active → i ≠ 0 → ringNumber d.header.ring = some i →
      s.fetch = .stalled d returned → r.size ≤ v.toNat ∨ span r.writeIndex < span v.toNat →
      let f := s.setRing i { r with state := .faulted }
      let answered := fun st : Status =>
        State.stageFree { f with fetch := .idle } 0 { f.answer st d.header.tag 0 with time2 := returned }
      ((s.device = .running ∨ s.device = .quiescing) → 64 ≤ (s.ring 0).account →
        exec (.crheadWrite i v) s = .next f)
      ∧ (s.device = .running → (s.ring 0).account < 64 →
        ∃ st, FirstThatFails (checksOf f 0 d) (some st)
          ∧ exec (.crheadWrite i v) s = .next (answered st).issueRead)
      ∧ (s.device = .quiescing → (s.ring 0).account < 64 →
        exec (.crheadWrite i v) s = .next (answered .aborted)))
    ∧ (s.device = .off ∨ s.device = .halted ∨ r.state ≠ .active → exec (.crheadWrite i v) s = .next s)

/-- CONFIGURATION_REGISTER_WRITE, at any offset and of any width (log 22): each of the six configuration
registers takes a 32-bit write in OFF, as written, and ignores it outside OFF; CTRL, SQTAIL and CRHEAD0 to 3 take
it by their own rules; every other offset ignores it. A write narrower than 32 bits is ignored, and one of 64
bits is two 32-bit writes, the lower offset first. -/
def Obligations.ConfigurationRegistersTakeWritesInOff : Prop :=
  ∀ (s : State) (v : Word), s.Listening →
    (s.device = .off →
      exec (.configurationRegisterWrite 0x18 (.word v)) s = .next { s with sqBaseLo := v }
      ∧ exec (.configurationRegisterWrite 0x1C (.word v)) s = .next { s with sqBaseHi := v }
      ∧ exec (.configurationRegisterWrite 0x20 (.word v)) s = .next { s with sqSize := v }
      ∧ exec (.configurationRegisterWrite 0x28 (.word v)) s = .next { s with cr0BaseLo := v }
      ∧ exec (.configurationRegisterWrite 0x2C (.word v)) s = .next { s with cr0BaseHi := v }
      ∧ exec (.configurationRegisterWrite 0x30 (.word v)) s = .next { s with cr0Cfg := v })
    ∧ (s.device ≠ .off → ∀ o ∈ ([0x18, 0x1C, 0x20, 0x28, 0x2C, 0x30] : List (BitVec 8)),
      exec (.configurationRegisterWrite o (.word v)) s = .next s)
    ∧ exec (.configurationRegisterWrite 0x04 (.word v)) s =
      (if v.getLsbD 1 then exec (.softReset (v.getLsbD 0)) s
        else if v.getLsbD 0 then exec .enable s else exec .quiesce s)
    ∧ exec (.configurationRegisterWrite 0x24 (.word v)) s = exec (.sqtailWrite v) s
    ∧ (∀ i : Fin 4, exec (.configurationRegisterWrite (BitVec.ofNat 8 (0x40 + 4 * i.val)) (.word v)) s =
      exec (.crheadWrite i v) s)
    ∧ (∀ o ∉ ([0x04, 0x18, 0x1C, 0x20, 0x24, 0x28, 0x2C, 0x30, 0x40, 0x44, 0x48, 0x4C] : List (BitVec 8)),
      exec (.configurationRegisterWrite o (.word v)) s = .next s)
    ∧ (∀ o, exec (.configurationRegisterWrite o .narrow) s = .next s)
    ∧ (∀ (o : BitVec 8) (w : Word) (t : State), o.toNat + 4 < 256 →
      exec (.configurationRegisterWrite o (.word v)) s = .next t →
      exec (.configurationRegisterWrite o (.pair (w ++ v))) s =
        exec (.configurationRegisterWrite (o + 4) (.word w)) t)

/-- TIME_LO_READ takes the capture of device time, whatever the access, and returns the bytes read: bits
31:0 of it for the register alone, all 48 bits with TIME_HI, STAT before it at 0x08, and the addressed bytes
of a narrower read. It is answered while the clock is stopped too. -/
def Obligations.TimeLoReadTakesTheCapture : Prop :=
  ∀ s : State, s.resetHeld = false →
    exec (.timeLoRead .word) s =
      .next { s with timeCapture := s.deviceTime, readData := bytesOf s.deviceTime 4 }
    ∧ exec (.timeLoRead .withTimeHi) s =
      .next { s with timeCapture := s.deviceTime, readData := bytesOf s.deviceTime 6 ++ [0, 0] }
    ∧ exec (.timeLoRead .withStat) s =
      .next { s with timeCapture := s.deviceTime, readData := bytesOf s.statWord 4 ++ bytesOf s.deviceTime 4 }
    ∧ (∀ a b : Fin 4, a ≤ b → exec (.timeLoRead (.bytes a b)) s = .next
        { s with
          timeCapture := s.deviceTime
          readData := ((bytesOf s.deviceTime 4).take (b.val + 1)).drop a.val })

/-- The registers read as the table of 10.1 and R201 place their fields, and an offset outside it reads 0. A
read narrower than 32 bits returns the addressed bytes, and one of 64 bits two registers, the lower offset
first. -/
def Obligations.StatusRegistersReadTheState : Prop :=
  ∀ s : State, s.discardedCount < 512 →
    (s.readRegister 0x08).extractLsb' 0 2 = s.device.code
    ∧ (s.readRegister 0x08).extractLsb' 4 4 = s.lastCause.code
    ∧ (s.readRegister 0x08).getLsbD 8 = s.commandDropped
    ∧ ((s.readRegister 0x08).extractLsb' 16 9).toNat = s.discardedCount
    ∧ (s.readRegister 0x08).extractLsb' 2 2 = 0#2 ∧ (s.readRegister 0x08).extractLsb' 9 7 = 0#7
    ∧ (s.readRegister 0x08).extractLsb' 25 7 = 0#7
    ∧ s.readRegister 0x04 = (if s.device = .running then 1#32 else 0#32)
    ∧ s.readRegister 0x00 = 0x01511608#32
    ∧ s.readRegister 0x10 = (s.timeCapture.extractLsb' 32 16).setWidth 32
    ∧ s.readRegister 0x18 = s.sqBaseLo ∧ s.readRegister 0x1C = s.sqBaseHi ∧ s.readRegister 0x20 = s.sqSize
    ∧ s.readRegister 0x24 = BitVec.ofNat 32 s.tail
    ∧ s.readRegister 0x28 = s.cr0BaseLo ∧ s.readRegister 0x2C = s.cr0BaseHi ∧ s.readRegister 0x30 = s.cr0Cfg
    ∧ (∀ i : Fin 4, let w := s.readRegister (0x40 + 4 * i.val)
      w.extractLsb' 0 12 = BitVec.ofNat 12 (s.ring i).hostHead ∧ w.extractLsb' 12 4 = 0#4
        ∧ w.extractLsb' 16 12 = BitVec.ofNat 12 (s.ring i).writeIndex ∧ w.extractLsb' 28 2 = 0#2
        ∧ w.extractLsb' 30 2 = (s.ring i).state.code)
    ∧ (∀ o, o ∉ [0x00, 0x04, 0x08, 0x0C, 0x10, 0x18, 0x1C, 0x20, 0x24, 0x28, 0x2C, 0x30, 0x40, 0x44, 0x48, 0x4C]
      → s.readRegister o = 0)
    ∧ (∀ o, s.readWindow o .word = bytesOf (s.readRegister o) 4
      ∧ s.readWindow o .pair = bytesOf (s.readRegister o) 4 ++ bytesOf (s.readRegister (o + 4)) 4
      ∧ ∀ a b : Fin 4, a ≤ b →
        s.readWindow o (.bytes a b) = ((bytesOf (s.readRegister o) 4).take (b.val + 1)).drop a.val)

/-- The event of the host link that a command is, if it is one (R2; log 1 for the submission records). -/
def eventOf : Instr → Option HostEvent
  | .enable => some (.ctrl true false)
  | .quiesce => some (.ctrl false false)
  | .softReset enableBit => some (.ctrl enableBit true)
  | .sqtailWrite v => some (.sqTail v)
  | .crheadWrite i v => some (.crHead i v)
  | .configurationRegisterWrite o w => some (.window o w)
  | .submissionReadReturn of data => some (.readReturn of (decodeSubmission data))
  | .submissionReadError of _ => some (.readError of)
  | .postedWriteChoice => some .writeReady
  | .nop h => some (.readReturn .outstanding (.nop h))
  | .defineRing h b => some (.readReturn .outstanding (.defineRing h b))
  | .setOutput h b => some (.readReturn .outstanding (.setOutput h b))
  | .setInput h b => some (.readReturn .outstanding (.setInput h b))
  | .startTrain h b => some (.readReturn .outstanding (.startTrain h b))
  | .armCapture h b => some (.readReturn .outstanding (.armCapture h b))
  | .cancel h => some (.readReturn .outstanding (.cancel h))
  | .fence h timeout => some (.readReturn .outstanding (.fence h timeout))
  | .readTime h => some (.readReturn .outstanding (.readTime h))
  | .adjustTime h v => some (.readReturn .outstanding (.adjustTime h v))
  | _ => none

/-- The event answers the read that is outstanding. -/
abbrev AnswersTheRead (e : HostEvent) : Prop := (∃ c, e = .readReturn .outstanding c) ∨ e = .readError .outstanding

/-- A read is outstanding and no held event answers it. -/
abbrev AnswerExpected (s : State) : Prop :=
  s.fetch.outstanding.isSome = true ∧ ∀ e ∈ s.heldEvents, ¬AnswersTheRead e

/-- REFCLK_STOP stops the clock and REFCLK_RESUME lets ticks come again, and neither changes anything else.
A host event is taken at once while the clock runs and none waits, and waits in the order of arrival else; an
answer of the outstanding read that no read expects is none (log 1). Once the clock runs the oldest held event
is due, and no other, and a step that finds nothing else due takes it; while it does not run none is due
(log 8). A held answer of a read that an earlier held event discards is a discarded read's. -/
def Obligations.HostEventsWaitForTheClock : Prop :=
  ∀ s : State,
    exec .refclkStop s = .next { s with refclk := .stopped }
    ∧ (s.refclk = .stopped → exec .refclkResume s = .next { s with refclk := .resuming })
    ∧ (s.refclk ≠ .stopped → exec .refclkResume s = .next s)
    ∧ (s.resetHeld = false → ∀ c e, eventOf c = some e →
      (s.refclk = .running → s.heldEvents = [] → exec c s = .next (s.takeHost e))
      ∧ (s.refclk ≠ .running ∨ s.heldEvents ≠ [] →
        (¬AnswersTheRead e ∨ AnswerExpected s →
          exec c s = .next { s with heldEvents := s.heldEvents ++ [e] })
        ∧ (AnswersTheRead e → ¬AnswerExpected s → exec c s = .next s)))
    ∧ (s.resetHeld = false → ∀ e rest, s.heldEvents = e :: rest →
      (s.refclk ≠ .running → ∀ x, Due.host x ∉ s.dueEvents)
      ∧ (s.refclk = .running → Due.host e ∈ s.dueEvents ∧ (∀ x, Due.host x ∈ s.dueEvents → x = e)
        ∧ (s.pending = [] → s.dueEvents = [.host e] →
          step s = .next (State.takeHost { s with heldEvents := rest, choices := s.choices + 1 } e)
          ∧ (s.fetch.outstanding.isSome = true → s.device = .running →
            (e = .ctrl false false ∨ ∃ b, e = .ctrl b true) →
            ∃ r, step s = .next r ∧ r.heldEvents.length = rest.length
              ∧ ∀ x ∈ r.heldEvents, ¬AnswersTheRead x))))

/-- BUS_MASTERING_ENABLE takes the message set-up that comes with it, if any (log 11), and issues the read
that is due, and with no message held nothing else; BUS_MASTERING_DISABLE only stops the part's own
accesses. -/
def Obligations.BusMasteringGatesReads : Prop :=
  ∀ s : State, s.resetHeld = false →
    (s.refclk = .running → (∀ v : Fin 4, s.vectors[v].held = false) →
      exec (.busMasteringEnable none) s = .next (State.issueRead { s with busMastering := true })
      ∧ ∀ m : MsiSetup, exec (.busMasteringEnable (some m)) s = .next (State.issueRead
        { s with
          busMastering := true, msiEnabled := m.enabled, vectorsEnabled := m.vectors
          vectors := Vector.ofFn fun v =>
            { s.vectors[v] with address := m.address[v], data := m.data[v] } }))
    ∧ exec .busMasteringDisable s = .next { s with busMastering := false }
    ∧ (s.device = .running → s.fetch = .idle → s.head ≠ s.tail → s.busMastering = true →
      s.issueRead = { s with
        fetch := .reading (SubmissionRead.mk s.head (s.sqBase + BitVec.ofNat 64 (64 * s.head)) 0) })
    ∧ (s.device ≠ .running ∨ s.fetch ≠ .idle ∨ s.head = s.tail ∨ s.busMastering = false → s.issueRead = s)

/-- VECTOR_MASK masks and VECTOR_UNMASK unmasks one vector. A message held for it then leaves the host
interface, while bus mastering is enabled (log 12): sent when messages are enabled, and discarded when they
are not. -/
def Obligations.UnmaskingSendsTheHeldMessage : Prop :=
  ∀ (s : State) (v : Fin 4), s.resetHeld = false →
    exec (.vectorMask v) s = .next (s.setVector v { s.vectors[v] with masked := true })
    ∧ (s.vectors[v].held = false ∨ s.busMastering = false →
      exec (.vectorUnmask v) s = .next (s.setVector v { s.vectors[v] with masked := false }))
    ∧ (s.vectors[v].held = true → s.busMastering = true →
      exec (.vectorUnmask v) s = .next
        { s.setVector v { s.vectors[v] with masked := false, held := false } with
          linkOut := if s.msiEnabled then s.linkOut ++ [.message v s.vectors[v].address s.vectors[v].data]
            else s.linkOut })

/-- SUBMISSION_READ_ERROR on the outstanding read, whichever error it is, and SUBMISSION_READ_TIMEOUT at
6,250,000 ticks after its issue, and not before (log 4), halt the device with SQ_READ_ERROR, head not
advanced; a read that timed out stays on the link, to be dropped if it returns (log 13). An error on a
discarded read, and the return of its data, only end that read on the link. What the halt does to closing
messages is log 17's. -/
def Obligations.FailedReadHaltsTheDevice : Prop :=
  ∀ (s : State) (e : ReadError),
    (s.Listening → s.device = .running → s.fetch.outstanding.isSome = true →
      exec (.submissionReadError .outstanding e) s =
        .next (haltedWith { s with fetch := .idle } .sqReadError))
    ∧ (s.Listening →
      exec (.submissionReadError .discarded e) s = .next { s with discardedReads := s.discardedReads - 1 })
    ∧ (s.Listening → ∀ data,
      exec (.submissionReadReturn .discarded data) s = .next { s with discardedReads := s.discardedReads - 1 })
    ∧ (∀ r, s.fetch = .reading r → s.device = .running →
      (6250000 ≤ r.elapsed → exec .submissionReadTimeout s = .next (haltedWith s .sqReadError))
      ∧ (r.elapsed < 6250000 → exec .submissionReadTimeout s = .next s))

/-- Where a message taken for a vector goes: nowhere when messages are disabled, to the vector's pending bit
when it is masked, and else onto the link (R180; log 27 for the order of the two). -/
def withMessage (s : State) (v : Fin 4) : State :=
  if s.msiEnabled = false then s
  else if s.vectors[v].masked then s.setVector v { s.vectors[v] with held := true }
  else { s with linkOut := s.linkOut ++ [.message v s.vectors[v].address s.vectors[v].data] }

/-- The state with the oldest staged record of ring `i`, which is `c`, written at its place with the ring's
phase: the index advances, the phase flips at a wrap, the unnotified count rises and the first unnotified
record starts the holdoff (R153, R172; log 28 for the sum of the address). -/
def writtenTo (s : State) (i : Fin 4) (c : Completion) (rest : List Completion) : State :=
  let r := s.ring i
  { s.setRing i
      { r with
        staged := rest, writeIndex := (r.writeIndex + 1) % r.size
        phase := if (r.writeIndex + 1) % r.size = 0 then !r.phase else r.phase
        unnotified := min (r.unnotified + 1) 65535
        timer := if r.unnotified ≠ 0 then r.timer
          else if r.holdoff = 0 then .expired
          else .running (s.deviceTime + BitVec.ofNat 48 (256 * r.holdoff)) } with
    linkOut := s.linkOut ++
      [.record (r.base + BitVec.ofNat 64 (32 * r.writeIndex)) (c.bytes r.phase)] }

/-- POSTED_WRITE_CHOICE writes the served ring's oldest staged record when no message comes before it. With no
record held STALLED nothing else follows in RUNNING; in QUIESCING nothing else follows while a record is still
staged, and the write of the last one returns the device to OFF with QUIESCED. A held record whose target ring
is the one written gets its place: in RUNNING it is processed at this tick, answered there with its return tick
and the status of the first check that fails, and a NOP with OK; in QUIESCING it is answered ABORTED. One held
for another ring without a place stays held. -/
def Obligations.PostedWriteWritesTheOldestRecord : Prop :=
  ∀ (s : State) (i : Fin 4) (c : Completion) (rest : List Completion), s.Listening →
    s.busMastering = true → s.haltMessage = false → s.closing = [] → s.servedRing = some i →
    (s.ring i).messageDue = false → (s.ring i).staged = c :: rest →
    let w := writtenTo s i c rest
    (s.device = .running → s.holdsRecord = false → exec .postedWriteChoice s = .next w)
    ∧ (s.device = .quiescing → s.holdsRecord = false →
      ((∃ j, (w.ring j).staged ≠ []) → exec .postedWriteChoice s = .next w)
      ∧ ((∀ j, (w.ring j).staged = []) → exec .postedWriteChoice s = .next
        { w with
          closing := w.markClosing, rings := Vector.replicate 4 Ring.undefined, fetch := .idle
          device := .off, lastCause := .quiesced, discardedCount := 0, commandDropped := false
          quiesceElapsed := 0 }))
    ∧ (∀ d returned, s.fetch = .stalled d returned → s.device = .running ∨ s.device = .quiescing →
      let k := s.target d.header
      let answered := fun (x : State) (st : Status) (count : Nat) =>
        State.stageFree { x with fetch := .idle } k { x.answer st d.header.tag count with time2 := returned }
      (k ≠ i → 64 ≤ (s.ring k).account → exec .postedWriteChoice s = .next w)
      ∧ (k = i → (s.ring i).account ≤ 64 →
        (s.device = .quiescing → exec .postedWriteChoice s = .next (answered w .aborted 0))
        ∧ (s.device = .running →
          (∀ st, FirstThatFails (checksOf (w.reserve i) i d) (some st) →
            exec .postedWriteChoice s = .next (answered w st 0).issueRead)
          ∧ (∀ h, d = .nop h → FirstThatFails (checksOf (w.reserve i) i d) none →
            exec .postedWriteChoice s = .next (State.issueRead
              (answered { w with admissionCounter := w.admissionCounter + 1 } .ok
                w.admissionCounter.toNat))))))

/-- POSTED_WRITE_CHOICE takes the halt message first, then the first of the closing messages as they are held,
which is by service level and ring number (over several returns to OFF: log 30), then the served ring's due
message, which sets its count to 0, stops its timer and awaits the host's head: no message of a ring that awaits
it is due. A message taken while messages are disabled is discarded, for a masked vector too (log 27). While bus
mastering is disabled it takes nothing. -/
def Obligations.PostedWriteSendsMessagesFirst : Prop :=
  ∀ s : State, s.Listening →
    (s.busMastering = false → exec .postedWriteChoice s = .next s)
    ∧ (s.busMastering = true → s.haltMessage = true →
      exec .postedWriteChoice s = .next (withMessage { s with haltMessage := false } 0))
    ∧ (∀ m rest, s.busMastering = true → s.haltMessage = false → s.closing = m :: rest →
      exec .postedWriteChoice s = .next (withMessage { s with closing := rest }
        (Fin.ofNat 4 (m.ring.val % s.vectorsEnabled))))
    ∧ (∀ i, s.busMastering = true → s.haltMessage = false → s.closing = [] → s.servedRing = some i →
      (s.ring i).messageDue = true →
      exec .postedWriteChoice s = .next (withMessage
        (s.setRing i { s.ring i with unnotified := 0, timer := .stopped, awaiting := true })
        (Fin.ofNat 4 (i.val % s.vectorsEnabled))))
    ∧ (∀ r : Ring, r.awaiting = true → r.messageDue = false)

/-- The arbiter serves a ring with a candidate, of the highest service level and of those the lowest
number, and none only when no ring has one; a candidate is a due message or, of an ACTIVE ring that is not
full, a staged record. -/
def Obligations.ArbiterServesTheHighestLevel : Prop :=
  ∀ s : State,
    (∀ i, s.servedRing = some i → (s.ring i).hasCandidate = true
      ∧ ∀ j, (s.ring j).hasCandidate = true →
        (s.ring j).level < (s.ring i).level ∨ (s.ring j).level = (s.ring i).level ∧ i ≤ j)
    ∧ (s.servedRing = none → ∀ j, (s.ring j).hasCandidate = false)
    ∧ (∀ j, (s.ring j).hasCandidate = true ↔ (s.ring j).state = .active
      ∧ ((s.ring j).awaiting = false ∧ ((s.ring j).threshold ≤ (s.ring j).unnotified
          ∨ (s.ring j).timer = .expired ∧ 1 ≤ (s.ring j).unnotified)
        ∨ (s.ring j).staged ≠ [] ∧ ((s.ring j).writeIndex + 1) % (s.ring j).size ≠ (s.ring j).hostHead))

/-! Events of the tick -/

/-- START_DELIVERED: the train goes RUNNING with segment 0, its line takes that level, the modulator
starting at position 0 for CARRIER and stopping for LOW and HIGH, and its BOUNDARY is requested at the
segment's end. -/
def Obligations.StartDeliveredRunsTheTrain : Prop :=
  ∀ (s : State) (k : Fin 32) (t : Train) (g : Segment) (rest : List Entry),
    DueNow s (.train k) .start rest → s.train k = some t → t.segments[0]? = some g →
    let l := s.line t.line
    exec (.startDelivered k) s = .next
      ((({ s with calendar := rest }.setTrain k (some { t with state := .running, index := 0 })).setLine t.line
        { l with
          present := g.level
          modulator := if g.level = LineLevel.carrier then
            some { position := 0, high := decide (0 < l.highWidth) } else none }).insert
        (.train k) .boundary (s.deviceTime + BitVec.ofNat 48 g.duration))

/-- BOUNDARY_DELIVERED at the end of a segment that is not the last: the train moves to the next segment,
its line takes that level and a new BOUNDARY is requested; the train's state and its repetitions done stay
as they are. -/
def Obligations.BoundaryMovesToTheNextSegment : Prop :=
  ∀ (s : State) (k : Fin 32) (t : Train) (g : Segment) (rest : List Entry),
    DueNow s (.train k) .boundary rest → s.train k = some t → t.segments[t.index + 1]? = some g →
    let l := s.line t.line
    exec (.boundaryDelivered k) s = .next
      ((({ s with calendar := rest }.setTrain k (some { t with index := t.index + 1 })).setLine t.line
        { l with
          present := g.level
          modulator := if g.level = LineLevel.carrier then
            some { position := 0, high := decide (0 < l.highWidth) } else none }).insert
        (.train k) .boundary (s.deviceTime + BitVec.ofNat 48 g.duration))

/-- BOUNDARY_DELIVERED at the end of the last segment adds a repetition done, up to the ceiling for an
endless train. A RUNNING train begins its next repetition with segment 0 while its repeat count is not
reached, and ends OK when it is; a STOPPING train ends STOPPED. Each end releases the trains that waited on it,
where it is not an end in cascade that finds one waiting, and is then reported to a waiting fence, which it ends
OK when it is the last that the fence counts. -/
def Obligations.LastBoundaryRepeatsOrEnds : Prop :=
  ∀ (s : State) (k : Fin 32) (t : Train) (g : Segment) (rest : List Entry),
    DueNow s (.train k) .boundary rest → s.train k = some t → t.segments.length ≤ t.index + 1 →
    t.segments[0]? = some g →
    let done := if t.repeatCount = 0 then min (t.repsDone + 1) (2 ^ 32 - 1) else t.repsDone + 1
    let l := s.line t.line
    (t.state = .running → (t.repeatCount = 0 ∨ t.repsDone + 1 ≠ t.repeatCount) →
      exec (.boundaryDelivered k) s = .next
        ((({ s with calendar := rest }.setTrain k (some { t with index := 0, repsDone := done })).setLine t.line
          { l with
            present := g.level
            modulator := if g.level = LineLevel.carrier then
              some { position := 0, high := decide (0 < l.highWidth) } else none }).insert
          (.train k) .boundary (s.deviceTime + BitVec.ofNat 48 g.duration)))
    ∧ (OffsetsInRange s →
      (t.state = .running → t.repeatCount ≠ 0 → t.repsDone + 1 = t.repeatCount →
        exec (.boundaryDelivered k) s = .next
          (endedAndReleased { s with calendar := rest } k t .ok (trainEndOf s t .ok false done)))
      ∧ (t.state = .stopping →
        (t.stopKind ≠ .cascade ∨ ∀ j, ∀ u ∈ s.train j, u.start.onEnd t.tag = false) →
        exec (.boundaryDelivered k) s = .next
          (endedAndReleased { s with calendar := rest } k t .stopped (trainEndOf s t .stopped false done))))

/-- A train's end OK at its last boundary lets a successor with offset 0 take the line at the same tick: the
finished owner's record is staged, the successor owns the line, is RUNNING from this tick with its segment 0 on the
line, and its BOUNDARY stands in the calendar. -/
def Obligations.SuccessorTakesTheLineAtOnce : Prop :=
  ∀ (s : State) (k j : Fin 32) (t u : Train) (g : Segment) (rest : List Entry),
    DueNow s (.train k) .boundary rest → s.train k = some t → s.train j = some u → k ≠ j →
    t.segments.length ≤ t.index + 1 → t.state = .running → t.repeatCount ≠ 0 →
    t.repsDone + 1 = t.repeatCount → u.state = .waiting → u.start = .afterEnd t.tag 0 → u.line = t.line →
    u.segments[0]? = some g → (s.line t.line).owner = some k → (s.line t.line).successor = some j →
    Owner.train j ∈ s.admission → s.admission.Nodup → s.fetch.waiting = none →
    (∀ m, m ≠ j → ∀ w ∈ s.train m, w.start.onEnd t.tag = false) →
    ∃ r, exec (.boundaryDelivered k) s = .next r
      ∧ (r.line t.line).owner = some j ∧ (r.line t.line).successor = none
      ∧ (r.line t.line).present = g.level
      ∧ r.train k = none
      ∧ r.train j = some { u with state := .running, index := 0, startTime := some s.deviceTime }
      ∧ (r.ring t.ring).staged = (s.ring t.ring).staged ++ [trainEndOf s t .ok false (t.repsDone + 1)]
      ∧ (1 ≤ g.duration → g.duration < 2 ^ 47 →
        { due := s.deviceTime + BitVec.ofNat 48 g.duration, owner := .train j, action := .boundary } ∈
          r.calendar)
      ∧ (∀ m, m ≠ t.line → r.line m = s.line m) ∧ (∀ m, m ≠ k → m ≠ j → r.train m = s.train m)
      ∧ r.captures = s.captures ∧ r.inputs = s.inputs

/-- What an owner's end leaves on its line: the idle level when it ends ABORTED or with policy IDLE, and
with HOLD the present level, CARRIER turned to LOW; the modulator stops; a successor becomes the owner. The
end of a successor only empties that field. -/
def Obligations.LineAtATrainsEnd : Prop :=
  ∀ (l : Line) (i : Fin 32) (st : Status) (p : EndPolicy),
    (l.owner = some i → l.trainEnded i st p =
      { l with
        present := if st = .aborted ∨ p = .idle then
            (match l.idle with | .low => LineLevel.low | .high => LineLevel.high)
          else if l.present = .carrier then .low else l.present
        owner := l.successor, successor := none, modulator := none })
    ∧ (l.owner ≠ some i → l.successor = some i → l.trainEnded i st p = { l with successor := none })
    ∧ (l.owner ≠ some i → l.successor ≠ some i → l.trainEnded i st p = l)

/-- The pin of a line by its drive, present level and carrier output (R22), and released while a reset is
held. -/
def Obligations.PinFollowsDriveAndLevel : Prop :=
  ∀ (s : State) (i : Fin 16),
    (s.resetHeld = true ∨ (s.line i).drive = .off → s.pinOut i = .released)
    ∧ (s.resetHeld = false → (s.line i).drive ≠ .off →
      (s.line i).present = .low ∨ (s.line i).present = .carrier
          ∧ (∃ m, (s.line i).modulator = some m ∧ m.high = false) →
      s.pinOut i = .drivenLow)
    ∧ (s.resetHeld = false → (s.line i).drive ≠ .off →
      (s.line i).present = .high ∨ (s.line i).present = .carrier
          ∧ (∃ m, (s.line i).modulator = some m ∧ m.high = true) →
      s.pinOut i = if (s.line i).drive = .pushPull then .drivenHigh else .released)

/-- CARRIER_TOGGLE changes the carrier output when the position has reached the high width or wrapped to 0
(log 15), and changes nothing when it is not due (log 4). -/
def Obligations.CarrierTogglesAtItsPhases : Prop :=
  ∀ (s : State) (i : Fin 16) (m : Modulator), (s.line i).modulator = some m →
    (m.high = true → (s.line i).highWidth ≤ m.position → exec (.carrierToggle i) s = .next
      (s.setLine i { s.line i with modulator := some { m with high := false } }))
    ∧ (m.high = false → m.position < (s.line i).highWidth → exec (.carrierToggle i) s = .next
      (s.setLine i { s.line i with modulator := some { m with high := true } }))
    ∧ (m.high = decide (m.position < (s.line i).highWidth) → exec (.carrierToggle i) s = .next s)

/-- OPEN_DELIVERED: the capture goes OPEN with this tick as its effective open time, and its CLOSE is requested
when it has a close time, and not otherwise; no record is produced. -/
def Obligations.OpenDeliveredOpensTheWindow : Prop :=
  ∀ (s : State) (k : Fin 16) (c : Capture) (rest : List Entry),
    DueNow s (.capture k) .openWindow rest → s.capture k = some c →
    let opened := { s with calendar := rest }.setCapture k
      (some { c with state := .opened, effectiveOpen := s.deviceTime })
    (c.closeTime = 0 → exec (.openDelivered k) s = .next opened)
    ∧ (c.closeTime ≠ 0 →
      exec (.openDelivered k) s = .next (opened.insert (.capture k) .closeWindow c.closeTime))

/-- CLOSE_DELIVERED ends the capture DEADLINE: its CAPTURE_END is staged, and the trains still waiting on its
edges end TRIGGER_LOST, each releasing the trains that waited on it. Every one of these ends is reported to a
waiting fence, which the last that it counts ends OK. -/
def Obligations.CloseDeliveredEndsTheWindow : Prop :=
  ∀ (s : State) (k : Fin 16) (c : Capture) (rest : List Entry),
    DueNow s (.capture k) .closeWindow rest → s.capture k = some c → OffsetsInRange s →
    exec (.closeDelivered k) s =
      .next (endedCapture { s with calendar := rest } k c (captureEndOf s c .deadline))

/-- TIMEOUT_DELIVERED ends the fence TIMEOUT with the count still live, on its ring, in the place it was
owed; fetching resumes and the works run on. The report of a work's end lowers the count by one; at 0 in
RUNNING the fence ends OK with count 0, and in the quiesce sweep the count only falls. -/
def Obligations.FenceEndsByTimeoutOrCount : Prop :=
  ∀ (s : State) (f : Fence), s.fetch = .fenced f →
    (∀ rest, DueNow s .fence .timeout rest → exec .timeoutDelivered s = .next (State.issueRead
      { (({ s with calendar := rest } : State).leave .fence).stageFinal f.ring
          (fenceEndOf s f.tag .timeout f.acceptedAt f.count) with
        fetch := .idle }))
    ∧ (1 < f.count ∨ 1 = f.count ∧ s.device ≠ .running →
      s.reportEnd = { s with fetch := .fenced { f with count := f.count - 1 } })
    ∧ (f.count = 1 → s.device = .running → s.reportEnd = State.issueRead
      { (s.leave .fence).stageFinal f.ring (fenceEndOf s f.tag .ok f.acceptedAt 0) with fetch := .idle })

/-- The line after its candidate is confirmed (R74). -/
def confirmedLine (s : State) (i : Fin 8) (c : Candidate) : InputLine :=
  { s.input i with filtered := c.level, candidate := none, raw := s.rawNow i, sampled := true }

/-- The capture takes the edge of candidate `c`: it is OPEN, the direction is selected, and the edge was not first
seen before its effective open time. Otherwise it passes the edge (R86). -/
abbrev TakesEdge (x : Capture) (c : Candidate) : Prop :=
  x.state = .opened
    ∧ (x.edgeSelect = .both ∨ x.edgeSelect = .rising ∧ c.level = .high ∨ x.edgeSelect = .falling ∧ c.level = .low)
    ∧ (c.firstSeen - x.effectiveOpen).toNat < 2 ^ 47

/-- The state after the capture `x` of slot `k` takes the edge of candidate `c`: it counts it and keeps the first
timestamp; in EACH mode the edge's record is staged while its ring has a place, and dropped and counted
otherwise; the trains waiting on this edge number are fired, oldest first; and an edge that brings the count to
the limit ends the capture COUNT_REACHED (R87, R88, R103). -/
def edgeTaken (s : State) (k : Fin 16) (x : Capture) (c : Candidate) : State :=
  let staged := x.reportMode = .each ∧ (s.ring x.ring).account < 64
  let y : Capture :=
    { x with
      taken := x.taken + 1, firstStamp := some (x.firstStamp.getD c.firstSeen)
      dropped := if x.reportMode = .each ∧ ¬staged then min (x.dropped + 1) 65535 else x.dropped }
  let counted := s.setCapture k (some y)
  let reported := if staged then counted.stageFree x.ring
      { kind := .captureEdge, status := .ok, late := false, lateOpen := x.lateOpen, cascade := false
        direction := if c.level = .high then .rising else .falling
        mask := 0, tag := x.tag, sqHead := s.head, time := c.firstSeen, time2 := s.deviceTime
        count := x.taken + 1, dropped := x.dropped }
    else counted
  let fired := (oldestWaiting reported (StartCondition.onEdge x.tag (x.taken + 1))).foldl
    (State.fire c.firstSeen) reported
  if x.taken + 1 = (if x.edgeLimit = 0 then 2 ^ 32 - 1 else x.edgeLimit) then
    endedCapture fired k y (captureEndOf s y .countReached)
  else fired

/-- The state after the capture of slot `k`, if it is live on line `i`, is given the edge of candidate `c`: it
takes it, or passes it with no change (R79, R86). -/
def edgeGiven (i : Fin 8) (c : Candidate) (s : State) (k : Fin 16) : State :=
  match s.capture k with
  | none => s
  | some x => if x.line = i ∧ TakesEdge x c then edgeTaken s k x c else s

/-- The state after the edge of candidate `c` on line `i` is given to the live captures, oldest first (R79). -/
def edgeOffered (s : State) (i : Fin 8) (c : Candidate) : State := s.captureOrder.foldl (edgeGiven i c) s

/-- Every live capture on line `i` passes the edge of candidate `c` (R86). -/
abbrev AllPass (s : State) (i : Fin 8) (c : Candidate) : Prop :=
  ∀ k ∈ s.captureOrder, ∀ x ∈ s.capture k, x.line = i → ¬TakesEdge x c

/-- INPUT_LEVEL_CHANGE. At a line not yet sampled at this tick the filter meets the tick's level, which is the new
one while the clock runs, and the pin's before the change when the clock has stopped inside the tick. A disabled
line only follows it; an enabled line where it differs from the filtered level starts a candidate first seen now,
which at filter length 0 is the filtered level at once, its edge given to the live captures on the line; a return
to the filtered level drops the candidate. When it is the level last sampled, only the pin changes; so it is at
a line already sampled, and while a reset is held. A change that the tick does not see leaves the line sampled for
this tick. What `sampled` stands for is log 7. -/
def Obligations.InputLevelChangeMeetsTheFilter : Prop :=
  ∀ (s : State) (i : Fin 8) (v : Level),
    let seen := if s.refclk = .running then v else (s.input i).pin
    (s.resetHeld = true →
      exec (.inputLevelChange i v) s = .next (s.setInput i { s.input i with pin := v, sampled := true }))
    ∧ (s.resetHeld = false → (s.input i).sampled = true →
      exec (.inputLevelChange i v) s = .next (s.setInput i { s.input i with pin := v }))
    ∧ (s.resetHeld = false → (s.input i).sampled = false → seen = (s.input i).raw →
      exec (.inputLevelChange i v) s =
        .next (s.setInput i { s.input i with pin := v, sampled := decide (s.refclk ≠ .running) }))
    ∧ (s.resetHeld = false → (s.input i).sampled = false → seen ≠ (s.input i).raw →
      ((s.input i).enabled = false → exec (.inputLevelChange i v) s =
        .next (s.setInput i { s.input i with pin := v, raw := seen, sampled := true }))
      ∧ ((s.input i).enabled = true → seen = (s.input i).filtered → exec (.inputLevelChange i v) s =
        .next (s.setInput i { s.input i with pin := v, raw := seen, sampled := true, candidate := none }))
      ∧ ((s.input i).enabled = true → seen ≠ (s.input i).filtered → (s.input i).candidate = none →
        (s.input i).filterLength ≠ 0 → exec (.inputLevelChange i v) s = .next (s.setInput i
          { s.input i with
            pin := v, raw := seen, sampled := true
            candidate := some { level := seen, firstSeen := s.deviceTime } }))
      ∧ ((s.input i).enabled = true → seen ≠ (s.input i).filtered → (s.input i).candidate = none →
        (s.input i).filterLength = 0 → OffsetsInRange s →
        exec (.inputLevelChange i v) s = .next (edgeOffered
          (s.setInput i
            { s.input i with pin := v, raw := seen, sampled := true, filtered := seen, candidate := none })
          i { level := seen, firstSeen := s.deviceTime })))

/-- EDGE_CONFIRMED: the filtered level takes the candidate, which is cleared, and the line's sample of the
tick is settled (log 7). With no capture live on the line, or when every one passes the edge, nothing else
happens; before the filter length is over nothing happens at all (log 4). -/
def Obligations.EdgeConfirmedSetsTheFilteredLevel : Prop :=
  ∀ (s : State) (i : Fin 8) (c : Candidate), (s.input i).candidate = some c →
    (ConfirmedNow s i c → AllPass s i c →
      exec (.edgeConfirmed i) s = .next (s.setInput i (confirmedLine s i c)))
    ∧ (¬ConfirmedNow s i c → exec (.edgeConfirmed i) s = .next s)

/-- EDGE_CONFIRMED gives the edge to the live captures on the line, oldest first, and each takes it or passes it:
an edge taken is counted, stamped, reported or dropped, fires the trains waiting on it, and at the limit ends its
capture COUNT_REACHED, with the trains still waiting on it lost and every end reported to a waiting fence. The
line's sample of the tick is settled (log 7). -/
def Obligations.CapturesTakeOrPassTheEdge : Prop :=
  ∀ (s : State) (i : Fin 8) (c : Candidate), ConfirmedNow s i c → OffsetsInRange s →
    exec (.edgeConfirmed i) s = .next (edgeOffered (s.setInput i (confirmedLine s i c)) i c)

/-- A train waiting on an edge is armed for the edge's timestamp plus its offset, with its START in the
calendar, when that lies ahead; otherwise it starts at this tick, late exactly if it was asked for an earlier
one. -/
def Obligations.TriggerArmsOrStartsLate : Prop :=
  ∀ (s : State) (k : Fin 32) (t : Train) (g : Segment) (stamp : Time), s.train k = some t →
    t.segments[0]? = some g →
    let asked := stamp + BitVec.ofNat 48 t.start.offset
    (isFuture s.deviceTime asked = true → State.fire stamp s k =
      (s.setTrain k (some { t with state := .armed, startTime := some asked })).insert (.train k) .start asked)
    ∧ (isFuture s.deviceTime asked = false → State.fire stamp s k =
      ((s.setTrain k (some
        { t with
          state := .running, index := 0, startTime := some s.deviceTime
          late := t.late || decide (asked ≠ s.deviceTime) })).levelRequest t.line g.level).insert
        (.train k) .boundary (s.deviceTime + BitVec.ofNat 48 g.duration))

/-- HOLDOFF_EXPIRY turns the running timer of an ACTIVE ring whose expiry tick is now to EXPIRED; that of a
ring that is not ACTIVE stays frozen. -/
def Obligations.HoldoffTimerExpires : Prop :=
  ∀ (s : State) (i : Fin 4),
    ((s.ring i).state = .active → (s.ring i).timer = .running s.deviceTime →
      exec (.holdoffExpiry i) s = .next (s.setRing i { s.ring i with timer := .expired }))
    ∧ ((s.ring i).state ≠ .active → exec (.holdoffExpiry i) s = .next s)

/-- Which of two closing messages the arbiter takes first: the higher service level, and of equal levels the
lower ring number (R182). -/
abbrev takenFirst (a b : ClosingMessage) : Prop := b.level < a.level ∨ b.level = a.level ∧ a.ring ≤ b.ring

/-- QUIESCE_LIMIT_EXPIRY at 125,000 elapsed ticks returns the device to OFF with QUIESCE_TIMEOUT: staged
records are discarded and counted, a held record is dropped and flagged, closing messages are marked, all
rings are UNDEFINED. One closing message is marked for every ACTIVE ring with records not announced, and for
no other, beside those still held from an earlier return to OFF, and all stand in one order, in which the arbiter
takes them (that the earlier are kept and merged so is log 30's choice). -/
def Obligations.QuiesceLimitDiscardsWhatIsStaged : Prop :=
  ∀ s : State,
    (s.markClosing.Perm (s.closing ++ ((List.finRange 4).filter fun i =>
      decide ((s.ring i).state = .active ∧ 1 ≤ (s.ring i).unnotified)).map fun i =>
        { level := (s.ring i).level, ring := i }))
    ∧ (s.closing.Pairwise takenFirst → s.markClosing.Pairwise takenFirst)
    ∧ (s.device = .quiescing → 125000 ≤ s.quiesceElapsed →
    exec .quiesceLimitExpiry s = .next
      { s with
        closing := s.markClosing
        rings := Vector.replicate 4 Ring.undefined
        fetch := .idle
        device := .off, lastCause := .quiesceTimeout
        discardedCount := (s.ring 0).staged.length + (s.ring 1).staged.length + (s.ring 2).staged.length
          + (s.ring 3).staged.length
        commandDropped := s.holdsRecord
        quiesceElapsed := 0 })
end

