-- ==== Sys2Proof/Laws/State.lean ====
section
/-! SUPPORT. What each update of the state leaves as it was, one lemma a field, so that no proof unfolds a
record update; and what the tables read after one of their slots is set. -/

namespace Sys2Proof.Machine

variable (s : State)

/-! setTrain -/

@[simp] theorem State.setTrain_deviceTime (i : Fin 32) (t : Option Train) : (s.setTrain i t).deviceTime = s.deviceTime := rfl
@[simp] theorem State.setTrain_timeRestart (i : Fin 32) (t : Option Train) : (s.setTrain i t).timeRestart = s.timeRestart := rfl
@[simp] theorem State.setTrain_timeCapture (i : Fin 32) (t : Option Train) : (s.setTrain i t).timeCapture = s.timeCapture := rfl
@[simp] theorem State.setTrain_refclk (i : Fin 32) (t : Option Train) : (s.setTrain i t).refclk = s.refclk := rfl
@[simp] theorem State.setTrain_resetHeld (i : Fin 32) (t : Option Train) : (s.setTrain i t).resetHeld = s.resetHeld := rfl
@[simp] theorem State.setTrain_calendar (i : Fin 32) (t : Option Train) : (s.setTrain i t).calendar = s.calendar := rfl
@[simp] theorem State.setTrain_admission (i : Fin 32) (t : Option Train) : (s.setTrain i t).admission = s.admission := rfl
@[simp] theorem State.setTrain_lines (i : Fin 32) (t : Option Train) : (s.setTrain i t).lines = s.lines := rfl
@[simp] theorem State.setTrain_inputs (i : Fin 32) (t : Option Train) : (s.setTrain i t).inputs = s.inputs := rfl
@[simp] theorem State.setTrain_captures (i : Fin 32) (t : Option Train) : (s.setTrain i t).captures = s.captures := rfl
@[simp] theorem State.setTrain_head (i : Fin 32) (t : Option Train) : (s.setTrain i t).head = s.head := rfl
@[simp] theorem State.setTrain_tail (i : Fin 32) (t : Option Train) : (s.setTrain i t).tail = s.tail := rfl
@[simp] theorem State.setTrain_fetch (i : Fin 32) (t : Option Train) : (s.setTrain i t).fetch = s.fetch := rfl
@[simp] theorem State.setTrain_discardedReads (i : Fin 32) (t : Option Train) : (s.setTrain i t).discardedReads = s.discardedReads := rfl
@[simp] theorem State.setTrain_admissionCounter (i : Fin 32) (t : Option Train) : (s.setTrain i t).admissionCounter = s.admissionCounter := rfl
@[simp] theorem State.setTrain_tagMap (i : Fin 32) (t : Option Train) : (s.setTrain i t).tagMap = s.tagMap := rfl
@[simp] theorem State.setTrain_rings (i : Fin 32) (t : Option Train) : (s.setTrain i t).rings = s.rings := rfl
@[simp] theorem State.setTrain_haltMessage (i : Fin 32) (t : Option Train) : (s.setTrain i t).haltMessage = s.haltMessage := rfl
@[simp] theorem State.setTrain_closing (i : Fin 32) (t : Option Train) : (s.setTrain i t).closing = s.closing := rfl
@[simp] theorem State.setTrain_device (i : Fin 32) (t : Option Train) : (s.setTrain i t).device = s.device := rfl
@[simp] theorem State.setTrain_lastCause (i : Fin 32) (t : Option Train) : (s.setTrain i t).lastCause = s.lastCause := rfl
@[simp] theorem State.setTrain_discardedCount (i : Fin 32) (t : Option Train) : (s.setTrain i t).discardedCount = s.discardedCount := rfl
@[simp] theorem State.setTrain_commandDropped (i : Fin 32) (t : Option Train) : (s.setTrain i t).commandDropped = s.commandDropped := rfl
@[simp] theorem State.setTrain_quiesceElapsed (i : Fin 32) (t : Option Train) : (s.setTrain i t).quiesceElapsed = s.quiesceElapsed := rfl
@[simp] theorem State.setTrain_sqBaseLo (i : Fin 32) (t : Option Train) : (s.setTrain i t).sqBaseLo = s.sqBaseLo := rfl
@[simp] theorem State.setTrain_sqBaseHi (i : Fin 32) (t : Option Train) : (s.setTrain i t).sqBaseHi = s.sqBaseHi := rfl
@[simp] theorem State.setTrain_sqSize (i : Fin 32) (t : Option Train) : (s.setTrain i t).sqSize = s.sqSize := rfl
@[simp] theorem State.setTrain_cr0BaseLo (i : Fin 32) (t : Option Train) : (s.setTrain i t).cr0BaseLo = s.cr0BaseLo := rfl
@[simp] theorem State.setTrain_cr0BaseHi (i : Fin 32) (t : Option Train) : (s.setTrain i t).cr0BaseHi = s.cr0BaseHi := rfl
@[simp] theorem State.setTrain_cr0Cfg (i : Fin 32) (t : Option Train) : (s.setTrain i t).cr0Cfg = s.cr0Cfg := rfl
@[simp] theorem State.setTrain_busMastering (i : Fin 32) (t : Option Train) : (s.setTrain i t).busMastering = s.busMastering := rfl
@[simp] theorem State.setTrain_msiEnabled (i : Fin 32) (t : Option Train) : (s.setTrain i t).msiEnabled = s.msiEnabled := rfl
@[simp] theorem State.setTrain_vectorsEnabled (i : Fin 32) (t : Option Train) : (s.setTrain i t).vectorsEnabled = s.vectorsEnabled := rfl
@[simp] theorem State.setTrain_vectors (i : Fin 32) (t : Option Train) : (s.setTrain i t).vectors = s.vectors := rfl
@[simp] theorem State.setTrain_heldEvents (i : Fin 32) (t : Option Train) : (s.setTrain i t).heldEvents = s.heldEvents := rfl
@[simp] theorem State.setTrain_linkOut (i : Fin 32) (t : Option Train) : (s.setTrain i t).linkOut = s.linkOut := rfl
@[simp] theorem State.setTrain_readData (i : Fin 32) (t : Option Train) : (s.setTrain i t).readData = s.readData := rfl
@[simp] theorem State.setTrain_choices (i : Fin 32) (t : Option Train) : (s.setTrain i t).choices = s.choices := rfl
@[simp] theorem State.setTrain_pending (i : Fin 32) (t : Option Train) : (s.setTrain i t).pending = s.pending := rfl
@[simp] theorem State.setTrain_capture (i : Fin 32) (t : Option Train) (k : Fin 16) : (s.setTrain i t).capture k = s.capture k := rfl
@[simp] theorem State.setTrain_line (i : Fin 32) (t : Option Train) (k : Fin 16) : (s.setTrain i t).line k = s.line k := rfl
@[simp] theorem State.setTrain_input (i : Fin 32) (t : Option Train) (k : Fin 8) : (s.setTrain i t).input k = s.input k := rfl
@[simp] theorem State.setTrain_ring (i : Fin 32) (t : Option Train) (k : Fin 4) : (s.setTrain i t).ring k = s.ring k := rfl

/-! setCapture -/

@[simp] theorem State.setCapture_deviceTime (i : Fin 16) (c : Option Capture) : (s.setCapture i c).deviceTime = s.deviceTime := rfl
@[simp] theorem State.setCapture_timeRestart (i : Fin 16) (c : Option Capture) : (s.setCapture i c).timeRestart = s.timeRestart := rfl
@[simp] theorem State.setCapture_timeCapture (i : Fin 16) (c : Option Capture) : (s.setCapture i c).timeCapture = s.timeCapture := rfl
@[simp] theorem State.setCapture_refclk (i : Fin 16) (c : Option Capture) : (s.setCapture i c).refclk = s.refclk := rfl
@[simp] theorem State.setCapture_resetHeld (i : Fin 16) (c : Option Capture) : (s.setCapture i c).resetHeld = s.resetHeld := rfl
@[simp] theorem State.setCapture_calendar (i : Fin 16) (c : Option Capture) : (s.setCapture i c).calendar = s.calendar := rfl
@[simp] theorem State.setCapture_admission (i : Fin 16) (c : Option Capture) : (s.setCapture i c).admission = s.admission := rfl
@[simp] theorem State.setCapture_trains (i : Fin 16) (c : Option Capture) : (s.setCapture i c).trains = s.trains := rfl
@[simp] theorem State.setCapture_lines (i : Fin 16) (c : Option Capture) : (s.setCapture i c).lines = s.lines := rfl
@[simp] theorem State.setCapture_inputs (i : Fin 16) (c : Option Capture) : (s.setCapture i c).inputs = s.inputs := rfl
@[simp] theorem State.setCapture_head (i : Fin 16) (c : Option Capture) : (s.setCapture i c).head = s.head := rfl
@[simp] theorem State.setCapture_tail (i : Fin 16) (c : Option Capture) : (s.setCapture i c).tail = s.tail := rfl
@[simp] theorem State.setCapture_fetch (i : Fin 16) (c : Option Capture) : (s.setCapture i c).fetch = s.fetch := rfl
@[simp] theorem State.setCapture_discardedReads (i : Fin 16) (c : Option Capture) : (s.setCapture i c).discardedReads = s.discardedReads := rfl
@[simp] theorem State.setCapture_admissionCounter (i : Fin 16) (c : Option Capture) : (s.setCapture i c).admissionCounter = s.admissionCounter := rfl
@[simp] theorem State.setCapture_tagMap (i : Fin 16) (c : Option Capture) : (s.setCapture i c).tagMap = s.tagMap := rfl
@[simp] theorem State.setCapture_rings (i : Fin 16) (c : Option Capture) : (s.setCapture i c).rings = s.rings := rfl
@[simp] theorem State.setCapture_haltMessage (i : Fin 16) (c : Option Capture) : (s.setCapture i c).haltMessage = s.haltMessage := rfl
@[simp] theorem State.setCapture_closing (i : Fin 16) (c : Option Capture) : (s.setCapture i c).closing = s.closing := rfl
@[simp] theorem State.setCapture_device (i : Fin 16) (c : Option Capture) : (s.setCapture i c).device = s.device := rfl
@[simp] theorem State.setCapture_lastCause (i : Fin 16) (c : Option Capture) : (s.setCapture i c).lastCause = s.lastCause := rfl
@[simp] theorem State.setCapture_discardedCount (i : Fin 16) (c : Option Capture) : (s.setCapture i c).discardedCount = s.discardedCount := rfl
@[simp] theorem State.setCapture_commandDropped (i : Fin 16) (c : Option Capture) : (s.setCapture i c).commandDropped = s.commandDropped := rfl
@[simp] theorem State.setCapture_quiesceElapsed (i : Fin 16) (c : Option Capture) : (s.setCapture i c).quiesceElapsed = s.quiesceElapsed := rfl
@[simp] theorem State.setCapture_sqBaseLo (i : Fin 16) (c : Option Capture) : (s.setCapture i c).sqBaseLo = s.sqBaseLo := rfl
@[simp] theorem State.setCapture_sqBaseHi (i : Fin 16) (c : Option Capture) : (s.setCapture i c).sqBaseHi = s.sqBaseHi := rfl
@[simp] theorem State.setCapture_sqSize (i : Fin 16) (c : Option Capture) : (s.setCapture i c).sqSize = s.sqSize := rfl
@[simp] theorem State.setCapture_cr0BaseLo (i : Fin 16) (c : Option Capture) : (s.setCapture i c).cr0BaseLo = s.cr0BaseLo := rfl
@[simp] theorem State.setCapture_cr0BaseHi (i : Fin 16) (c : Option Capture) : (s.setCapture i c).cr0BaseHi = s.cr0BaseHi := rfl
@[simp] theorem State.setCapture_cr0Cfg (i : Fin 16) (c : Option Capture) : (s.setCapture i c).cr0Cfg = s.cr0Cfg := rfl
@[simp] theorem State.setCapture_busMastering (i : Fin 16) (c : Option Capture) : (s.setCapture i c).busMastering = s.busMastering := rfl
@[simp] theorem State.setCapture_msiEnabled (i : Fin 16) (c : Option Capture) : (s.setCapture i c).msiEnabled = s.msiEnabled := rfl
@[simp] theorem State.setCapture_vectorsEnabled (i : Fin 16) (c : Option Capture) : (s.setCapture i c).vectorsEnabled = s.vectorsEnabled := rfl
@[simp] theorem State.setCapture_vectors (i : Fin 16) (c : Option Capture) : (s.setCapture i c).vectors = s.vectors := rfl
@[simp] theorem State.setCapture_heldEvents (i : Fin 16) (c : Option Capture) : (s.setCapture i c).heldEvents = s.heldEvents := rfl
@[simp] theorem State.setCapture_linkOut (i : Fin 16) (c : Option Capture) : (s.setCapture i c).linkOut = s.linkOut := rfl
@[simp] theorem State.setCapture_readData (i : Fin 16) (c : Option Capture) : (s.setCapture i c).readData = s.readData := rfl
@[simp] theorem State.setCapture_choices (i : Fin 16) (c : Option Capture) : (s.setCapture i c).choices = s.choices := rfl
@[simp] theorem State.setCapture_pending (i : Fin 16) (c : Option Capture) : (s.setCapture i c).pending = s.pending := rfl
@[simp] theorem State.setCapture_train (i : Fin 16) (c : Option Capture) (k : Fin 32) : (s.setCapture i c).train k = s.train k := rfl
@[simp] theorem State.setCapture_line (i : Fin 16) (c : Option Capture) (k : Fin 16) : (s.setCapture i c).line k = s.line k := rfl
@[simp] theorem State.setCapture_input (i : Fin 16) (c : Option Capture) (k : Fin 8) : (s.setCapture i c).input k = s.input k := rfl
@[simp] theorem State.setCapture_ring (i : Fin 16) (c : Option Capture) (k : Fin 4) : (s.setCapture i c).ring k = s.ring k := rfl

/-! setLine -/

@[simp] theorem State.setLine_deviceTime (i : Fin 16) (l : Line) : (s.setLine i l).deviceTime = s.deviceTime := rfl
@[simp] theorem State.setLine_timeRestart (i : Fin 16) (l : Line) : (s.setLine i l).timeRestart = s.timeRestart := rfl
@[simp] theorem State.setLine_timeCapture (i : Fin 16) (l : Line) : (s.setLine i l).timeCapture = s.timeCapture := rfl
@[simp] theorem State.setLine_refclk (i : Fin 16) (l : Line) : (s.setLine i l).refclk = s.refclk := rfl
@[simp] theorem State.setLine_resetHeld (i : Fin 16) (l : Line) : (s.setLine i l).resetHeld = s.resetHeld := rfl
@[simp] theorem State.setLine_calendar (i : Fin 16) (l : Line) : (s.setLine i l).calendar = s.calendar := rfl
@[simp] theorem State.setLine_admission (i : Fin 16) (l : Line) : (s.setLine i l).admission = s.admission := rfl
@[simp] theorem State.setLine_trains (i : Fin 16) (l : Line) : (s.setLine i l).trains = s.trains := rfl
@[simp] theorem State.setLine_inputs (i : Fin 16) (l : Line) : (s.setLine i l).inputs = s.inputs := rfl
@[simp] theorem State.setLine_captures (i : Fin 16) (l : Line) : (s.setLine i l).captures = s.captures := rfl
@[simp] theorem State.setLine_head (i : Fin 16) (l : Line) : (s.setLine i l).head = s.head := rfl
@[simp] theorem State.setLine_tail (i : Fin 16) (l : Line) : (s.setLine i l).tail = s.tail := rfl
@[simp] theorem State.setLine_fetch (i : Fin 16) (l : Line) : (s.setLine i l).fetch = s.fetch := rfl
@[simp] theorem State.setLine_discardedReads (i : Fin 16) (l : Line) : (s.setLine i l).discardedReads = s.discardedReads := rfl
@[simp] theorem State.setLine_admissionCounter (i : Fin 16) (l : Line) : (s.setLine i l).admissionCounter = s.admissionCounter := rfl
@[simp] theorem State.setLine_tagMap (i : Fin 16) (l : Line) : (s.setLine i l).tagMap = s.tagMap := rfl
@[simp] theorem State.setLine_rings (i : Fin 16) (l : Line) : (s.setLine i l).rings = s.rings := rfl
@[simp] theorem State.setLine_haltMessage (i : Fin 16) (l : Line) : (s.setLine i l).haltMessage = s.haltMessage := rfl
@[simp] theorem State.setLine_closing (i : Fin 16) (l : Line) : (s.setLine i l).closing = s.closing := rfl
@[simp] theorem State.setLine_device (i : Fin 16) (l : Line) : (s.setLine i l).device = s.device := rfl
@[simp] theorem State.setLine_lastCause (i : Fin 16) (l : Line) : (s.setLine i l).lastCause = s.lastCause := rfl
@[simp] theorem State.setLine_discardedCount (i : Fin 16) (l : Line) : (s.setLine i l).discardedCount = s.discardedCount := rfl
@[simp] theorem State.setLine_commandDropped (i : Fin 16) (l : Line) : (s.setLine i l).commandDropped = s.commandDropped := rfl
@[simp] theorem State.setLine_quiesceElapsed (i : Fin 16) (l : Line) : (s.setLine i l).quiesceElapsed = s.quiesceElapsed := rfl
@[simp] theorem State.setLine_sqBaseLo (i : Fin 16) (l : Line) : (s.setLine i l).sqBaseLo = s.sqBaseLo := rfl
@[simp] theorem State.setLine_sqBaseHi (i : Fin 16) (l : Line) : (s.setLine i l).sqBaseHi = s.sqBaseHi := rfl
@[simp] theorem State.setLine_sqSize (i : Fin 16) (l : Line) : (s.setLine i l).sqSize = s.sqSize := rfl
@[simp] theorem State.setLine_cr0BaseLo (i : Fin 16) (l : Line) : (s.setLine i l).cr0BaseLo = s.cr0BaseLo := rfl
@[simp] theorem State.setLine_cr0BaseHi (i : Fin 16) (l : Line) : (s.setLine i l).cr0BaseHi = s.cr0BaseHi := rfl
@[simp] theorem State.setLine_cr0Cfg (i : Fin 16) (l : Line) : (s.setLine i l).cr0Cfg = s.cr0Cfg := rfl
@[simp] theorem State.setLine_busMastering (i : Fin 16) (l : Line) : (s.setLine i l).busMastering = s.busMastering := rfl
@[simp] theorem State.setLine_msiEnabled (i : Fin 16) (l : Line) : (s.setLine i l).msiEnabled = s.msiEnabled := rfl
@[simp] theorem State.setLine_vectorsEnabled (i : Fin 16) (l : Line) : (s.setLine i l).vectorsEnabled = s.vectorsEnabled := rfl
@[simp] theorem State.setLine_vectors (i : Fin 16) (l : Line) : (s.setLine i l).vectors = s.vectors := rfl
@[simp] theorem State.setLine_heldEvents (i : Fin 16) (l : Line) : (s.setLine i l).heldEvents = s.heldEvents := rfl
@[simp] theorem State.setLine_linkOut (i : Fin 16) (l : Line) : (s.setLine i l).linkOut = s.linkOut := rfl
@[simp] theorem State.setLine_readData (i : Fin 16) (l : Line) : (s.setLine i l).readData = s.readData := rfl
@[simp] theorem State.setLine_choices (i : Fin 16) (l : Line) : (s.setLine i l).choices = s.choices := rfl
@[simp] theorem State.setLine_pending (i : Fin 16) (l : Line) : (s.setLine i l).pending = s.pending := rfl
@[simp] theorem State.setLine_train (i : Fin 16) (l : Line) (k : Fin 32) : (s.setLine i l).train k = s.train k := rfl
@[simp] theorem State.setLine_capture (i : Fin 16) (l : Line) (k : Fin 16) : (s.setLine i l).capture k = s.capture k := rfl
@[simp] theorem State.setLine_input (i : Fin 16) (l : Line) (k : Fin 8) : (s.setLine i l).input k = s.input k := rfl
@[simp] theorem State.setLine_ring (i : Fin 16) (l : Line) (k : Fin 4) : (s.setLine i l).ring k = s.ring k := rfl

/-! setInput -/

@[simp] theorem State.setInput_deviceTime (i : Fin 8) (l : InputLine) : (s.setInput i l).deviceTime = s.deviceTime := rfl
@[simp] theorem State.setInput_timeRestart (i : Fin 8) (l : InputLine) : (s.setInput i l).timeRestart = s.timeRestart := rfl
@[simp] theorem State.setInput_timeCapture (i : Fin 8) (l : InputLine) : (s.setInput i l).timeCapture = s.timeCapture := rfl
@[simp] theorem State.setInput_refclk (i : Fin 8) (l : InputLine) : (s.setInput i l).refclk = s.refclk := rfl
@[simp] theorem State.setInput_resetHeld (i : Fin 8) (l : InputLine) : (s.setInput i l).resetHeld = s.resetHeld := rfl
@[simp] theorem State.setInput_calendar (i : Fin 8) (l : InputLine) : (s.setInput i l).calendar = s.calendar := rfl
@[simp] theorem State.setInput_admission (i : Fin 8) (l : InputLine) : (s.setInput i l).admission = s.admission := rfl
@[simp] theorem State.setInput_trains (i : Fin 8) (l : InputLine) : (s.setInput i l).trains = s.trains := rfl
@[simp] theorem State.setInput_lines (i : Fin 8) (l : InputLine) : (s.setInput i l).lines = s.lines := rfl
@[simp] theorem State.setInput_captures (i : Fin 8) (l : InputLine) : (s.setInput i l).captures = s.captures := rfl
@[simp] theorem State.setInput_head (i : Fin 8) (l : InputLine) : (s.setInput i l).head = s.head := rfl
@[simp] theorem State.setInput_tail (i : Fin 8) (l : InputLine) : (s.setInput i l).tail = s.tail := rfl
@[simp] theorem State.setInput_fetch (i : Fin 8) (l : InputLine) : (s.setInput i l).fetch = s.fetch := rfl
@[simp] theorem State.setInput_discardedReads (i : Fin 8) (l : InputLine) : (s.setInput i l).discardedReads = s.discardedReads := rfl
@[simp] theorem State.setInput_admissionCounter (i : Fin 8) (l : InputLine) : (s.setInput i l).admissionCounter = s.admissionCounter := rfl
@[simp] theorem State.setInput_tagMap (i : Fin 8) (l : InputLine) : (s.setInput i l).tagMap = s.tagMap := rfl
@[simp] theorem State.setInput_rings (i : Fin 8) (l : InputLine) : (s.setInput i l).rings = s.rings := rfl
@[simp] theorem State.setInput_haltMessage (i : Fin 8) (l : InputLine) : (s.setInput i l).haltMessage = s.haltMessage := rfl
@[simp] theorem State.setInput_closing (i : Fin 8) (l : InputLine) : (s.setInput i l).closing = s.closing := rfl
@[simp] theorem State.setInput_device (i : Fin 8) (l : InputLine) : (s.setInput i l).device = s.device := rfl
@[simp] theorem State.setInput_lastCause (i : Fin 8) (l : InputLine) : (s.setInput i l).lastCause = s.lastCause := rfl
@[simp] theorem State.setInput_discardedCount (i : Fin 8) (l : InputLine) : (s.setInput i l).discardedCount = s.discardedCount := rfl
@[simp] theorem State.setInput_commandDropped (i : Fin 8) (l : InputLine) : (s.setInput i l).commandDropped = s.commandDropped := rfl
@[simp] theorem State.setInput_quiesceElapsed (i : Fin 8) (l : InputLine) : (s.setInput i l).quiesceElapsed = s.quiesceElapsed := rfl
@[simp] theorem State.setInput_sqBaseLo (i : Fin 8) (l : InputLine) : (s.setInput i l).sqBaseLo = s.sqBaseLo := rfl
@[simp] theorem State.setInput_sqBaseHi (i : Fin 8) (l : InputLine) : (s.setInput i l).sqBaseHi = s.sqBaseHi := rfl
@[simp] theorem State.setInput_sqSize (i : Fin 8) (l : InputLine) : (s.setInput i l).sqSize = s.sqSize := rfl
@[simp] theorem State.setInput_cr0BaseLo (i : Fin 8) (l : InputLine) : (s.setInput i l).cr0BaseLo = s.cr0BaseLo := rfl
@[simp] theorem State.setInput_cr0BaseHi (i : Fin 8) (l : InputLine) : (s.setInput i l).cr0BaseHi = s.cr0BaseHi := rfl
@[simp] theorem State.setInput_cr0Cfg (i : Fin 8) (l : InputLine) : (s.setInput i l).cr0Cfg = s.cr0Cfg := rfl
@[simp] theorem State.setInput_busMastering (i : Fin 8) (l : InputLine) : (s.setInput i l).busMastering = s.busMastering := rfl
@[simp] theorem State.setInput_msiEnabled (i : Fin 8) (l : InputLine) : (s.setInput i l).msiEnabled = s.msiEnabled := rfl
@[simp] theorem State.setInput_vectorsEnabled (i : Fin 8) (l : InputLine) : (s.setInput i l).vectorsEnabled = s.vectorsEnabled := rfl
@[simp] theorem State.setInput_vectors (i : Fin 8) (l : InputLine) : (s.setInput i l).vectors = s.vectors := rfl
@[simp] theorem State.setInput_heldEvents (i : Fin 8) (l : InputLine) : (s.setInput i l).heldEvents = s.heldEvents := rfl
@[simp] theorem State.setInput_linkOut (i : Fin 8) (l : InputLine) : (s.setInput i l).linkOut = s.linkOut := rfl
@[simp] theorem State.setInput_readData (i : Fin 8) (l : InputLine) : (s.setInput i l).readData = s.readData := rfl
@[simp] theorem State.setInput_choices (i : Fin 8) (l : InputLine) : (s.setInput i l).choices = s.choices := rfl
@[simp] theorem State.setInput_pending (i : Fin 8) (l : InputLine) : (s.setInput i l).pending = s.pending := rfl
@[simp] theorem State.setInput_train (i : Fin 8) (l : InputLine) (k : Fin 32) : (s.setInput i l).train k = s.train k := rfl
@[simp] theorem State.setInput_capture (i : Fin 8) (l : InputLine) (k : Fin 16) : (s.setInput i l).capture k = s.capture k := rfl
@[simp] theorem State.setInput_line (i : Fin 8) (l : InputLine) (k : Fin 16) : (s.setInput i l).line k = s.line k := rfl
@[simp] theorem State.setInput_ring (i : Fin 8) (l : InputLine) (k : Fin 4) : (s.setInput i l).ring k = s.ring k := rfl

/-! setRing -/

@[simp] theorem State.setRing_deviceTime (i : Fin 4) (r : Ring) : (s.setRing i r).deviceTime = s.deviceTime := rfl
@[simp] theorem State.setRing_timeRestart (i : Fin 4) (r : Ring) : (s.setRing i r).timeRestart = s.timeRestart := rfl
@[simp] theorem State.setRing_timeCapture (i : Fin 4) (r : Ring) : (s.setRing i r).timeCapture = s.timeCapture := rfl
@[simp] theorem State.setRing_refclk (i : Fin 4) (r : Ring) : (s.setRing i r).refclk = s.refclk := rfl
@[simp] theorem State.setRing_resetHeld (i : Fin 4) (r : Ring) : (s.setRing i r).resetHeld = s.resetHeld := rfl
@[simp] theorem State.setRing_calendar (i : Fin 4) (r : Ring) : (s.setRing i r).calendar = s.calendar := rfl
@[simp] theorem State.setRing_admission (i : Fin 4) (r : Ring) : (s.setRing i r).admission = s.admission := rfl
@[simp] theorem State.setRing_trains (i : Fin 4) (r : Ring) : (s.setRing i r).trains = s.trains := rfl
@[simp] theorem State.setRing_lines (i : Fin 4) (r : Ring) : (s.setRing i r).lines = s.lines := rfl
@[simp] theorem State.setRing_inputs (i : Fin 4) (r : Ring) : (s.setRing i r).inputs = s.inputs := rfl
@[simp] theorem State.setRing_captures (i : Fin 4) (r : Ring) : (s.setRing i r).captures = s.captures := rfl
@[simp] theorem State.setRing_head (i : Fin 4) (r : Ring) : (s.setRing i r).head = s.head := rfl
@[simp] theorem State.setRing_tail (i : Fin 4) (r : Ring) : (s.setRing i r).tail = s.tail := rfl
@[simp] theorem State.setRing_fetch (i : Fin 4) (r : Ring) : (s.setRing i r).fetch = s.fetch := rfl
@[simp] theorem State.setRing_discardedReads (i : Fin 4) (r : Ring) : (s.setRing i r).discardedReads = s.discardedReads := rfl
@[simp] theorem State.setRing_admissionCounter (i : Fin 4) (r : Ring) : (s.setRing i r).admissionCounter = s.admissionCounter := rfl
@[simp] theorem State.setRing_tagMap (i : Fin 4) (r : Ring) : (s.setRing i r).tagMap = s.tagMap := rfl
@[simp] theorem State.setRing_haltMessage (i : Fin 4) (r : Ring) : (s.setRing i r).haltMessage = s.haltMessage := rfl
@[simp] theorem State.setRing_closing (i : Fin 4) (r : Ring) : (s.setRing i r).closing = s.closing := rfl
@[simp] theorem State.setRing_device (i : Fin 4) (r : Ring) : (s.setRing i r).device = s.device := rfl
@[simp] theorem State.setRing_lastCause (i : Fin 4) (r : Ring) : (s.setRing i r).lastCause = s.lastCause := rfl
@[simp] theorem State.setRing_discardedCount (i : Fin 4) (r : Ring) : (s.setRing i r).discardedCount = s.discardedCount := rfl
@[simp] theorem State.setRing_commandDropped (i : Fin 4) (r : Ring) : (s.setRing i r).commandDropped = s.commandDropped := rfl
@[simp] theorem State.setRing_quiesceElapsed (i : Fin 4) (r : Ring) : (s.setRing i r).quiesceElapsed = s.quiesceElapsed := rfl
@[simp] theorem State.setRing_sqBaseLo (i : Fin 4) (r : Ring) : (s.setRing i r).sqBaseLo = s.sqBaseLo := rfl
@[simp] theorem State.setRing_sqBaseHi (i : Fin 4) (r : Ring) : (s.setRing i r).sqBaseHi = s.sqBaseHi := rfl
@[simp] theorem State.setRing_sqSize (i : Fin 4) (r : Ring) : (s.setRing i r).sqSize = s.sqSize := rfl
@[simp] theorem State.setRing_cr0BaseLo (i : Fin 4) (r : Ring) : (s.setRing i r).cr0BaseLo = s.cr0BaseLo := rfl
@[simp] theorem State.setRing_cr0BaseHi (i : Fin 4) (r : Ring) : (s.setRing i r).cr0BaseHi = s.cr0BaseHi := rfl
@[simp] theorem State.setRing_cr0Cfg (i : Fin 4) (r : Ring) : (s.setRing i r).cr0Cfg = s.cr0Cfg := rfl
@[simp] theorem State.setRing_busMastering (i : Fin 4) (r : Ring) : (s.setRing i r).busMastering = s.busMastering := rfl
@[simp] theorem State.setRing_msiEnabled (i : Fin 4) (r : Ring) : (s.setRing i r).msiEnabled = s.msiEnabled := rfl
@[simp] theorem State.setRing_vectorsEnabled (i : Fin 4) (r : Ring) : (s.setRing i r).vectorsEnabled = s.vectorsEnabled := rfl
@[simp] theorem State.setRing_vectors (i : Fin 4) (r : Ring) : (s.setRing i r).vectors = s.vectors := rfl
@[simp] theorem State.setRing_heldEvents (i : Fin 4) (r : Ring) : (s.setRing i r).heldEvents = s.heldEvents := rfl
@[simp] theorem State.setRing_linkOut (i : Fin 4) (r : Ring) : (s.setRing i r).linkOut = s.linkOut := rfl
@[simp] theorem State.setRing_readData (i : Fin 4) (r : Ring) : (s.setRing i r).readData = s.readData := rfl
@[simp] theorem State.setRing_choices (i : Fin 4) (r : Ring) : (s.setRing i r).choices = s.choices := rfl
@[simp] theorem State.setRing_pending (i : Fin 4) (r : Ring) : (s.setRing i r).pending = s.pending := rfl
@[simp] theorem State.setRing_train (i : Fin 4) (r : Ring) (k : Fin 32) : (s.setRing i r).train k = s.train k := rfl
@[simp] theorem State.setRing_capture (i : Fin 4) (r : Ring) (k : Fin 16) : (s.setRing i r).capture k = s.capture k := rfl
@[simp] theorem State.setRing_line (i : Fin 4) (r : Ring) (k : Fin 16) : (s.setRing i r).line k = s.line k := rfl
@[simp] theorem State.setRing_input (i : Fin 4) (r : Ring) (k : Fin 8) : (s.setRing i r).input k = s.input k := rfl

/-! setVector -/

@[simp] theorem State.setVector_deviceTime (v : Fin 4) (m : MsiVector) : (s.setVector v m).deviceTime = s.deviceTime := rfl
@[simp] theorem State.setVector_timeRestart (v : Fin 4) (m : MsiVector) : (s.setVector v m).timeRestart = s.timeRestart := rfl
@[simp] theorem State.setVector_timeCapture (v : Fin 4) (m : MsiVector) : (s.setVector v m).timeCapture = s.timeCapture := rfl
@[simp] theorem State.setVector_refclk (v : Fin 4) (m : MsiVector) : (s.setVector v m).refclk = s.refclk := rfl
@[simp] theorem State.setVector_resetHeld (v : Fin 4) (m : MsiVector) : (s.setVector v m).resetHeld = s.resetHeld := rfl
@[simp] theorem State.setVector_calendar (v : Fin 4) (m : MsiVector) : (s.setVector v m).calendar = s.calendar := rfl
@[simp] theorem State.setVector_admission (v : Fin 4) (m : MsiVector) : (s.setVector v m).admission = s.admission := rfl
@[simp] theorem State.setVector_trains (v : Fin 4) (m : MsiVector) : (s.setVector v m).trains = s.trains := rfl
@[simp] theorem State.setVector_lines (v : Fin 4) (m : MsiVector) : (s.setVector v m).lines = s.lines := rfl
@[simp] theorem State.setVector_inputs (v : Fin 4) (m : MsiVector) : (s.setVector v m).inputs = s.inputs := rfl
@[simp] theorem State.setVector_captures (v : Fin 4) (m : MsiVector) : (s.setVector v m).captures = s.captures := rfl
@[simp] theorem State.setVector_head (v : Fin 4) (m : MsiVector) : (s.setVector v m).head = s.head := rfl
@[simp] theorem State.setVector_tail (v : Fin 4) (m : MsiVector) : (s.setVector v m).tail = s.tail := rfl
@[simp] theorem State.setVector_fetch (v : Fin 4) (m : MsiVector) : (s.setVector v m).fetch = s.fetch := rfl
@[simp] theorem State.setVector_discardedReads (v : Fin 4) (m : MsiVector) : (s.setVector v m).discardedReads = s.discardedReads := rfl
@[simp] theorem State.setVector_admissionCounter (v : Fin 4) (m : MsiVector) : (s.setVector v m).admissionCounter = s.admissionCounter := rfl
@[simp] theorem State.setVector_tagMap (v : Fin 4) (m : MsiVector) : (s.setVector v m).tagMap = s.tagMap := rfl
@[simp] theorem State.setVector_rings (v : Fin 4) (m : MsiVector) : (s.setVector v m).rings = s.rings := rfl
@[simp] theorem State.setVector_haltMessage (v : Fin 4) (m : MsiVector) : (s.setVector v m).haltMessage = s.haltMessage := rfl
@[simp] theorem State.setVector_closing (v : Fin 4) (m : MsiVector) : (s.setVector v m).closing = s.closing := rfl
@[simp] theorem State.setVector_device (v : Fin 4) (m : MsiVector) : (s.setVector v m).device = s.device := rfl
@[simp] theorem State.setVector_lastCause (v : Fin 4) (m : MsiVector) : (s.setVector v m).lastCause = s.lastCause := rfl
@[simp] theorem State.setVector_discardedCount (v : Fin 4) (m : MsiVector) : (s.setVector v m).discardedCount = s.discardedCount := rfl
@[simp] theorem State.setVector_commandDropped (v : Fin 4) (m : MsiVector) : (s.setVector v m).commandDropped = s.commandDropped := rfl
@[simp] theorem State.setVector_quiesceElapsed (v : Fin 4) (m : MsiVector) : (s.setVector v m).quiesceElapsed = s.quiesceElapsed := rfl
@[simp] theorem State.setVector_sqBaseLo (v : Fin 4) (m : MsiVector) : (s.setVector v m).sqBaseLo = s.sqBaseLo := rfl
@[simp] theorem State.setVector_sqBaseHi (v : Fin 4) (m : MsiVector) : (s.setVector v m).sqBaseHi = s.sqBaseHi := rfl
@[simp] theorem State.setVector_sqSize (v : Fin 4) (m : MsiVector) : (s.setVector v m).sqSize = s.sqSize := rfl
@[simp] theorem State.setVector_cr0BaseLo (v : Fin 4) (m : MsiVector) : (s.setVector v m).cr0BaseLo = s.cr0BaseLo := rfl
@[simp] theorem State.setVector_cr0BaseHi (v : Fin 4) (m : MsiVector) : (s.setVector v m).cr0BaseHi = s.cr0BaseHi := rfl
@[simp] theorem State.setVector_cr0Cfg (v : Fin 4) (m : MsiVector) : (s.setVector v m).cr0Cfg = s.cr0Cfg := rfl
@[simp] theorem State.setVector_busMastering (v : Fin 4) (m : MsiVector) : (s.setVector v m).busMastering = s.busMastering := rfl
@[simp] theorem State.setVector_msiEnabled (v : Fin 4) (m : MsiVector) : (s.setVector v m).msiEnabled = s.msiEnabled := rfl
@[simp] theorem State.setVector_vectorsEnabled (v : Fin 4) (m : MsiVector) : (s.setVector v m).vectorsEnabled = s.vectorsEnabled := rfl
@[simp] theorem State.setVector_heldEvents (v : Fin 4) (m : MsiVector) : (s.setVector v m).heldEvents = s.heldEvents := rfl
@[simp] theorem State.setVector_linkOut (v : Fin 4) (m : MsiVector) : (s.setVector v m).linkOut = s.linkOut := rfl
@[simp] theorem State.setVector_readData (v : Fin 4) (m : MsiVector) : (s.setVector v m).readData = s.readData := rfl
@[simp] theorem State.setVector_choices (v : Fin 4) (m : MsiVector) : (s.setVector v m).choices = s.choices := rfl
@[simp] theorem State.setVector_pending (v : Fin 4) (m : MsiVector) : (s.setVector v m).pending = s.pending := rfl
@[simp] theorem State.setVector_train (v : Fin 4) (m : MsiVector) (k : Fin 32) : (s.setVector v m).train k = s.train k := rfl
@[simp] theorem State.setVector_capture (v : Fin 4) (m : MsiVector) (k : Fin 16) : (s.setVector v m).capture k = s.capture k := rfl
@[simp] theorem State.setVector_line (v : Fin 4) (m : MsiVector) (k : Fin 16) : (s.setVector v m).line k = s.line k := rfl
@[simp] theorem State.setVector_input (v : Fin 4) (m : MsiVector) (k : Fin 8) : (s.setVector v m).input k = s.input k := rfl
@[simp] theorem State.setVector_ring (v : Fin 4) (m : MsiVector) (k : Fin 4) : (s.setVector v m).ring k = s.ring k := rfl

/-! join -/

@[simp] theorem State.join_deviceTime (o : Owner) : (s.join o).deviceTime = s.deviceTime := rfl
@[simp] theorem State.join_timeRestart (o : Owner) : (s.join o).timeRestart = s.timeRestart := rfl
@[simp] theorem State.join_timeCapture (o : Owner) : (s.join o).timeCapture = s.timeCapture := rfl
@[simp] theorem State.join_refclk (o : Owner) : (s.join o).refclk = s.refclk := rfl
@[simp] theorem State.join_resetHeld (o : Owner) : (s.join o).resetHeld = s.resetHeld := rfl
@[simp] theorem State.join_calendar (o : Owner) : (s.join o).calendar = s.calendar := rfl
@[simp] theorem State.join_trains (o : Owner) : (s.join o).trains = s.trains := rfl
@[simp] theorem State.join_lines (o : Owner) : (s.join o).lines = s.lines := rfl
@[simp] theorem State.join_inputs (o : Owner) : (s.join o).inputs = s.inputs := rfl
@[simp] theorem State.join_captures (o : Owner) : (s.join o).captures = s.captures := rfl
@[simp] theorem State.join_head (o : Owner) : (s.join o).head = s.head := rfl
@[simp] theorem State.join_tail (o : Owner) : (s.join o).tail = s.tail := rfl
@[simp] theorem State.join_fetch (o : Owner) : (s.join o).fetch = s.fetch := rfl
@[simp] theorem State.join_discardedReads (o : Owner) : (s.join o).discardedReads = s.discardedReads := rfl
@[simp] theorem State.join_admissionCounter (o : Owner) : (s.join o).admissionCounter = s.admissionCounter := rfl
@[simp] theorem State.join_tagMap (o : Owner) : (s.join o).tagMap = s.tagMap := rfl
@[simp] theorem State.join_rings (o : Owner) : (s.join o).rings = s.rings := rfl
@[simp] theorem State.join_haltMessage (o : Owner) : (s.join o).haltMessage = s.haltMessage := rfl
@[simp] theorem State.join_closing (o : Owner) : (s.join o).closing = s.closing := rfl
@[simp] theorem State.join_device (o : Owner) : (s.join o).device = s.device := rfl
@[simp] theorem State.join_lastCause (o : Owner) : (s.join o).lastCause = s.lastCause := rfl
@[simp] theorem State.join_discardedCount (o : Owner) : (s.join o).discardedCount = s.discardedCount := rfl
@[simp] theorem State.join_commandDropped (o : Owner) : (s.join o).commandDropped = s.commandDropped := rfl
@[simp] theorem State.join_quiesceElapsed (o : Owner) : (s.join o).quiesceElapsed = s.quiesceElapsed := rfl
@[simp] theorem State.join_sqBaseLo (o : Owner) : (s.join o).sqBaseLo = s.sqBaseLo := rfl
@[simp] theorem State.join_sqBaseHi (o : Owner) : (s.join o).sqBaseHi = s.sqBaseHi := rfl
@[simp] theorem State.join_sqSize (o : Owner) : (s.join o).sqSize = s.sqSize := rfl
@[simp] theorem State.join_cr0BaseLo (o : Owner) : (s.join o).cr0BaseLo = s.cr0BaseLo := rfl
@[simp] theorem State.join_cr0BaseHi (o : Owner) : (s.join o).cr0BaseHi = s.cr0BaseHi := rfl
@[simp] theorem State.join_cr0Cfg (o : Owner) : (s.join o).cr0Cfg = s.cr0Cfg := rfl
@[simp] theorem State.join_busMastering (o : Owner) : (s.join o).busMastering = s.busMastering := rfl
@[simp] theorem State.join_msiEnabled (o : Owner) : (s.join o).msiEnabled = s.msiEnabled := rfl
@[simp] theorem State.join_vectorsEnabled (o : Owner) : (s.join o).vectorsEnabled = s.vectorsEnabled := rfl
@[simp] theorem State.join_vectors (o : Owner) : (s.join o).vectors = s.vectors := rfl
@[simp] theorem State.join_heldEvents (o : Owner) : (s.join o).heldEvents = s.heldEvents := rfl
@[simp] theorem State.join_linkOut (o : Owner) : (s.join o).linkOut = s.linkOut := rfl
@[simp] theorem State.join_readData (o : Owner) : (s.join o).readData = s.readData := rfl
@[simp] theorem State.join_choices (o : Owner) : (s.join o).choices = s.choices := rfl
@[simp] theorem State.join_pending (o : Owner) : (s.join o).pending = s.pending := rfl
@[simp] theorem State.join_train (o : Owner) (k : Fin 32) : (s.join o).train k = s.train k := rfl
@[simp] theorem State.join_capture (o : Owner) (k : Fin 16) : (s.join o).capture k = s.capture k := rfl
@[simp] theorem State.join_line (o : Owner) (k : Fin 16) : (s.join o).line k = s.line k := rfl
@[simp] theorem State.join_input (o : Owner) (k : Fin 8) : (s.join o).input k = s.input k := rfl
@[simp] theorem State.join_ring (o : Owner) (k : Fin 4) : (s.join o).ring k = s.ring k := rfl

/-! leave -/

@[simp] theorem State.leave_deviceTime (o : Owner) : (s.leave o).deviceTime = s.deviceTime := rfl
@[simp] theorem State.leave_timeRestart (o : Owner) : (s.leave o).timeRestart = s.timeRestart := rfl
@[simp] theorem State.leave_timeCapture (o : Owner) : (s.leave o).timeCapture = s.timeCapture := rfl
@[simp] theorem State.leave_refclk (o : Owner) : (s.leave o).refclk = s.refclk := rfl
@[simp] theorem State.leave_resetHeld (o : Owner) : (s.leave o).resetHeld = s.resetHeld := rfl
@[simp] theorem State.leave_trains (o : Owner) : (s.leave o).trains = s.trains := rfl
@[simp] theorem State.leave_lines (o : Owner) : (s.leave o).lines = s.lines := rfl
@[simp] theorem State.leave_inputs (o : Owner) : (s.leave o).inputs = s.inputs := rfl
@[simp] theorem State.leave_captures (o : Owner) : (s.leave o).captures = s.captures := rfl
@[simp] theorem State.leave_head (o : Owner) : (s.leave o).head = s.head := rfl
@[simp] theorem State.leave_tail (o : Owner) : (s.leave o).tail = s.tail := rfl
@[simp] theorem State.leave_fetch (o : Owner) : (s.leave o).fetch = s.fetch := rfl
@[simp] theorem State.leave_discardedReads (o : Owner) : (s.leave o).discardedReads = s.discardedReads := rfl
@[simp] theorem State.leave_admissionCounter (o : Owner) : (s.leave o).admissionCounter = s.admissionCounter := rfl
@[simp] theorem State.leave_tagMap (o : Owner) : (s.leave o).tagMap = s.tagMap := rfl
@[simp] theorem State.leave_rings (o : Owner) : (s.leave o).rings = s.rings := rfl
@[simp] theorem State.leave_haltMessage (o : Owner) : (s.leave o).haltMessage = s.haltMessage := rfl
@[simp] theorem State.leave_closing (o : Owner) : (s.leave o).closing = s.closing := rfl
@[simp] theorem State.leave_device (o : Owner) : (s.leave o).device = s.device := rfl
@[simp] theorem State.leave_lastCause (o : Owner) : (s.leave o).lastCause = s.lastCause := rfl
@[simp] theorem State.leave_discardedCount (o : Owner) : (s.leave o).discardedCount = s.discardedCount := rfl
@[simp] theorem State.leave_commandDropped (o : Owner) : (s.leave o).commandDropped = s.commandDropped := rfl
@[simp] theorem State.leave_quiesceElapsed (o : Owner) : (s.leave o).quiesceElapsed = s.quiesceElapsed := rfl
@[simp] theorem State.leave_sqBaseLo (o : Owner) : (s.leave o).sqBaseLo = s.sqBaseLo := rfl
@[simp] theorem State.leave_sqBaseHi (o : Owner) : (s.leave o).sqBaseHi = s.sqBaseHi := rfl
@[simp] theorem State.leave_sqSize (o : Owner) : (s.leave o).sqSize = s.sqSize := rfl
@[simp] theorem State.leave_cr0BaseLo (o : Owner) : (s.leave o).cr0BaseLo = s.cr0BaseLo := rfl
@[simp] theorem State.leave_cr0BaseHi (o : Owner) : (s.leave o).cr0BaseHi = s.cr0BaseHi := rfl
@[simp] theorem State.leave_cr0Cfg (o : Owner) : (s.leave o).cr0Cfg = s.cr0Cfg := rfl
@[simp] theorem State.leave_busMastering (o : Owner) : (s.leave o).busMastering = s.busMastering := rfl
@[simp] theorem State.leave_msiEnabled (o : Owner) : (s.leave o).msiEnabled = s.msiEnabled := rfl
@[simp] theorem State.leave_vectorsEnabled (o : Owner) : (s.leave o).vectorsEnabled = s.vectorsEnabled := rfl
@[simp] theorem State.leave_vectors (o : Owner) : (s.leave o).vectors = s.vectors := rfl
@[simp] theorem State.leave_heldEvents (o : Owner) : (s.leave o).heldEvents = s.heldEvents := rfl
@[simp] theorem State.leave_linkOut (o : Owner) : (s.leave o).linkOut = s.linkOut := rfl
@[simp] theorem State.leave_readData (o : Owner) : (s.leave o).readData = s.readData := rfl
@[simp] theorem State.leave_choices (o : Owner) : (s.leave o).choices = s.choices := rfl
@[simp] theorem State.leave_pending (o : Owner) : (s.leave o).pending = s.pending := rfl
@[simp] theorem State.leave_train (o : Owner) (k : Fin 32) : (s.leave o).train k = s.train k := rfl
@[simp] theorem State.leave_capture (o : Owner) (k : Fin 16) : (s.leave o).capture k = s.capture k := rfl
@[simp] theorem State.leave_line (o : Owner) (k : Fin 16) : (s.leave o).line k = s.line k := rfl
@[simp] theorem State.leave_input (o : Owner) (k : Fin 8) : (s.leave o).input k = s.input k := rfl
@[simp] theorem State.leave_ring (o : Owner) (k : Fin 4) : (s.leave o).ring k = s.ring k := rfl

/-! popEntry -/

@[simp] theorem State.popEntry_deviceTime : (s.popEntry).deviceTime = s.deviceTime := rfl
@[simp] theorem State.popEntry_timeRestart : (s.popEntry).timeRestart = s.timeRestart := rfl
@[simp] theorem State.popEntry_timeCapture : (s.popEntry).timeCapture = s.timeCapture := rfl
@[simp] theorem State.popEntry_refclk : (s.popEntry).refclk = s.refclk := rfl
@[simp] theorem State.popEntry_resetHeld : (s.popEntry).resetHeld = s.resetHeld := rfl
@[simp] theorem State.popEntry_admission : (s.popEntry).admission = s.admission := rfl
@[simp] theorem State.popEntry_trains : (s.popEntry).trains = s.trains := rfl
@[simp] theorem State.popEntry_lines : (s.popEntry).lines = s.lines := rfl
@[simp] theorem State.popEntry_inputs : (s.popEntry).inputs = s.inputs := rfl
@[simp] theorem State.popEntry_captures : (s.popEntry).captures = s.captures := rfl
@[simp] theorem State.popEntry_head : (s.popEntry).head = s.head := rfl
@[simp] theorem State.popEntry_tail : (s.popEntry).tail = s.tail := rfl
@[simp] theorem State.popEntry_fetch : (s.popEntry).fetch = s.fetch := rfl
@[simp] theorem State.popEntry_discardedReads : (s.popEntry).discardedReads = s.discardedReads := rfl
@[simp] theorem State.popEntry_admissionCounter : (s.popEntry).admissionCounter = s.admissionCounter := rfl
@[simp] theorem State.popEntry_tagMap : (s.popEntry).tagMap = s.tagMap := rfl
@[simp] theorem State.popEntry_rings : (s.popEntry).rings = s.rings := rfl
@[simp] theorem State.popEntry_haltMessage : (s.popEntry).haltMessage = s.haltMessage := rfl
@[simp] theorem State.popEntry_closing : (s.popEntry).closing = s.closing := rfl
@[simp] theorem State.popEntry_device : (s.popEntry).device = s.device := rfl
@[simp] theorem State.popEntry_lastCause : (s.popEntry).lastCause = s.lastCause := rfl
@[simp] theorem State.popEntry_discardedCount : (s.popEntry).discardedCount = s.discardedCount := rfl
@[simp] theorem State.popEntry_commandDropped : (s.popEntry).commandDropped = s.commandDropped := rfl
@[simp] theorem State.popEntry_quiesceElapsed : (s.popEntry).quiesceElapsed = s.quiesceElapsed := rfl
@[simp] theorem State.popEntry_sqBaseLo : (s.popEntry).sqBaseLo = s.sqBaseLo := rfl
@[simp] theorem State.popEntry_sqBaseHi : (s.popEntry).sqBaseHi = s.sqBaseHi := rfl
@[simp] theorem State.popEntry_sqSize : (s.popEntry).sqSize = s.sqSize := rfl
@[simp] theorem State.popEntry_cr0BaseLo : (s.popEntry).cr0BaseLo = s.cr0BaseLo := rfl
@[simp] theorem State.popEntry_cr0BaseHi : (s.popEntry).cr0BaseHi = s.cr0BaseHi := rfl
@[simp] theorem State.popEntry_cr0Cfg : (s.popEntry).cr0Cfg = s.cr0Cfg := rfl
@[simp] theorem State.popEntry_busMastering : (s.popEntry).busMastering = s.busMastering := rfl
@[simp] theorem State.popEntry_msiEnabled : (s.popEntry).msiEnabled = s.msiEnabled := rfl
@[simp] theorem State.popEntry_vectorsEnabled : (s.popEntry).vectorsEnabled = s.vectorsEnabled := rfl
@[simp] theorem State.popEntry_vectors : (s.popEntry).vectors = s.vectors := rfl
@[simp] theorem State.popEntry_heldEvents : (s.popEntry).heldEvents = s.heldEvents := rfl
@[simp] theorem State.popEntry_linkOut : (s.popEntry).linkOut = s.linkOut := rfl
@[simp] theorem State.popEntry_readData : (s.popEntry).readData = s.readData := rfl
@[simp] theorem State.popEntry_choices : (s.popEntry).choices = s.choices := rfl
@[simp] theorem State.popEntry_pending : (s.popEntry).pending = s.pending := rfl
@[simp] theorem State.popEntry_train (k : Fin 32) : (s.popEntry).train k = s.train k := rfl
@[simp] theorem State.popEntry_capture (k : Fin 16) : (s.popEntry).capture k = s.capture k := rfl
@[simp] theorem State.popEntry_line (k : Fin 16) : (s.popEntry).line k = s.line k := rfl
@[simp] theorem State.popEntry_input (k : Fin 8) : (s.popEntry).input k = s.input k := rfl
@[simp] theorem State.popEntry_ring (k : Fin 4) : (s.popEntry).ring k = s.ring k := rfl

/-! addTag -/

@[simp] theorem State.addTag_deviceTime (t : Tag) (w : Work) : (s.addTag t w).deviceTime = s.deviceTime := rfl
@[simp] theorem State.addTag_timeRestart (t : Tag) (w : Work) : (s.addTag t w).timeRestart = s.timeRestart := rfl
@[simp] theorem State.addTag_timeCapture (t : Tag) (w : Work) : (s.addTag t w).timeCapture = s.timeCapture := rfl
@[simp] theorem State.addTag_refclk (t : Tag) (w : Work) : (s.addTag t w).refclk = s.refclk := rfl
@[simp] theorem State.addTag_resetHeld (t : Tag) (w : Work) : (s.addTag t w).resetHeld = s.resetHeld := rfl
@[simp] theorem State.addTag_calendar (t : Tag) (w : Work) : (s.addTag t w).calendar = s.calendar := rfl
@[simp] theorem State.addTag_admission (t : Tag) (w : Work) : (s.addTag t w).admission = s.admission := rfl
@[simp] theorem State.addTag_trains (t : Tag) (w : Work) : (s.addTag t w).trains = s.trains := rfl
@[simp] theorem State.addTag_lines (t : Tag) (w : Work) : (s.addTag t w).lines = s.lines := rfl
@[simp] theorem State.addTag_inputs (t : Tag) (w : Work) : (s.addTag t w).inputs = s.inputs := rfl
@[simp] theorem State.addTag_captures (t : Tag) (w : Work) : (s.addTag t w).captures = s.captures := rfl
@[simp] theorem State.addTag_head (t : Tag) (w : Work) : (s.addTag t w).head = s.head := rfl
@[simp] theorem State.addTag_tail (t : Tag) (w : Work) : (s.addTag t w).tail = s.tail := rfl
@[simp] theorem State.addTag_fetch (t : Tag) (w : Work) : (s.addTag t w).fetch = s.fetch := rfl
@[simp] theorem State.addTag_discardedReads (t : Tag) (w : Work) : (s.addTag t w).discardedReads = s.discardedReads := rfl
@[simp] theorem State.addTag_admissionCounter (t : Tag) (w : Work) : (s.addTag t w).admissionCounter = s.admissionCounter := rfl
@[simp] theorem State.addTag_rings (t : Tag) (w : Work) : (s.addTag t w).rings = s.rings := rfl
@[simp] theorem State.addTag_haltMessage (t : Tag) (w : Work) : (s.addTag t w).haltMessage = s.haltMessage := rfl
@[simp] theorem State.addTag_closing (t : Tag) (w : Work) : (s.addTag t w).closing = s.closing := rfl
@[simp] theorem State.addTag_device (t : Tag) (w : Work) : (s.addTag t w).device = s.device := rfl
@[simp] theorem State.addTag_lastCause (t : Tag) (w : Work) : (s.addTag t w).lastCause = s.lastCause := rfl
@[simp] theorem State.addTag_discardedCount (t : Tag) (w : Work) : (s.addTag t w).discardedCount = s.discardedCount := rfl
@[simp] theorem State.addTag_commandDropped (t : Tag) (w : Work) : (s.addTag t w).commandDropped = s.commandDropped := rfl
@[simp] theorem State.addTag_quiesceElapsed (t : Tag) (w : Work) : (s.addTag t w).quiesceElapsed = s.quiesceElapsed := rfl
@[simp] theorem State.addTag_sqBaseLo (t : Tag) (w : Work) : (s.addTag t w).sqBaseLo = s.sqBaseLo := rfl
@[simp] theorem State.addTag_sqBaseHi (t : Tag) (w : Work) : (s.addTag t w).sqBaseHi = s.sqBaseHi := rfl
@[simp] theorem State.addTag_sqSize (t : Tag) (w : Work) : (s.addTag t w).sqSize = s.sqSize := rfl
@[simp] theorem State.addTag_cr0BaseLo (t : Tag) (w : Work) : (s.addTag t w).cr0BaseLo = s.cr0BaseLo := rfl
@[simp] theorem State.addTag_cr0BaseHi (t : Tag) (w : Work) : (s.addTag t w).cr0BaseHi = s.cr0BaseHi := rfl
@[simp] theorem State.addTag_cr0Cfg (t : Tag) (w : Work) : (s.addTag t w).cr0Cfg = s.cr0Cfg := rfl
@[simp] theorem State.addTag_busMastering (t : Tag) (w : Work) : (s.addTag t w).busMastering = s.busMastering := rfl
@[simp] theorem State.addTag_msiEnabled (t : Tag) (w : Work) : (s.addTag t w).msiEnabled = s.msiEnabled := rfl
@[simp] theorem State.addTag_vectorsEnabled (t : Tag) (w : Work) : (s.addTag t w).vectorsEnabled = s.vectorsEnabled := rfl
@[simp] theorem State.addTag_vectors (t : Tag) (w : Work) : (s.addTag t w).vectors = s.vectors := rfl
@[simp] theorem State.addTag_heldEvents (t : Tag) (w : Work) : (s.addTag t w).heldEvents = s.heldEvents := rfl
@[simp] theorem State.addTag_linkOut (t : Tag) (w : Work) : (s.addTag t w).linkOut = s.linkOut := rfl
@[simp] theorem State.addTag_readData (t : Tag) (w : Work) : (s.addTag t w).readData = s.readData := rfl
@[simp] theorem State.addTag_choices (t : Tag) (w : Work) : (s.addTag t w).choices = s.choices := rfl
@[simp] theorem State.addTag_pending (t : Tag) (w : Work) : (s.addTag t w).pending = s.pending := rfl
@[simp] theorem State.addTag_train (t : Tag) (w : Work) (k : Fin 32) : (s.addTag t w).train k = s.train k := rfl
@[simp] theorem State.addTag_capture (t : Tag) (w : Work) (k : Fin 16) : (s.addTag t w).capture k = s.capture k := rfl
@[simp] theorem State.addTag_line (t : Tag) (w : Work) (k : Fin 16) : (s.addTag t w).line k = s.line k := rfl
@[simp] theorem State.addTag_input (t : Tag) (w : Work) (k : Fin 8) : (s.addTag t w).input k = s.input k := rfl
@[simp] theorem State.addTag_ring (t : Tag) (w : Work) (k : Fin 4) : (s.addTag t w).ring k = s.ring k := rfl

/-! dropTag -/

@[simp] theorem State.dropTag_deviceTime (w : Work) : (s.dropTag w).deviceTime = s.deviceTime := rfl
@[simp] theorem State.dropTag_timeRestart (w : Work) : (s.dropTag w).timeRestart = s.timeRestart := rfl
@[simp] theorem State.dropTag_timeCapture (w : Work) : (s.dropTag w).timeCapture = s.timeCapture := rfl
@[simp] theorem State.dropTag_refclk (w : Work) : (s.dropTag w).refclk = s.refclk := rfl
@[simp] theorem State.dropTag_resetHeld (w : Work) : (s.dropTag w).resetHeld = s.resetHeld := rfl
@[simp] theorem State.dropTag_calendar (w : Work) : (s.dropTag w).calendar = s.calendar := rfl
@[simp] theorem State.dropTag_admission (w : Work) : (s.dropTag w).admission = s.admission := rfl
@[simp] theorem State.dropTag_trains (w : Work) : (s.dropTag w).trains = s.trains := rfl
@[simp] theorem State.dropTag_lines (w : Work) : (s.dropTag w).lines = s.lines := rfl
@[simp] theorem State.dropTag_inputs (w : Work) : (s.dropTag w).inputs = s.inputs := rfl
@[simp] theorem State.dropTag_captures (w : Work) : (s.dropTag w).captures = s.captures := rfl
@[simp] theorem State.dropTag_head (w : Work) : (s.dropTag w).head = s.head := rfl
@[simp] theorem State.dropTag_tail (w : Work) : (s.dropTag w).tail = s.tail := rfl
@[simp] theorem State.dropTag_fetch (w : Work) : (s.dropTag w).fetch = s.fetch := rfl
@[simp] theorem State.dropTag_discardedReads (w : Work) : (s.dropTag w).discardedReads = s.discardedReads := rfl
@[simp] theorem State.dropTag_admissionCounter (w : Work) : (s.dropTag w).admissionCounter = s.admissionCounter := rfl
@[simp] theorem State.dropTag_rings (w : Work) : (s.dropTag w).rings = s.rings := rfl
@[simp] theorem State.dropTag_haltMessage (w : Work) : (s.dropTag w).haltMessage = s.haltMessage := rfl
@[simp] theorem State.dropTag_closing (w : Work) : (s.dropTag w).closing = s.closing := rfl
@[simp] theorem State.dropTag_device (w : Work) : (s.dropTag w).device = s.device := rfl
@[simp] theorem State.dropTag_lastCause (w : Work) : (s.dropTag w).lastCause = s.lastCause := rfl
@[simp] theorem State.dropTag_discardedCount (w : Work) : (s.dropTag w).discardedCount = s.discardedCount := rfl
@[simp] theorem State.dropTag_commandDropped (w : Work) : (s.dropTag w).commandDropped = s.commandDropped := rfl
@[simp] theorem State.dropTag_quiesceElapsed (w : Work) : (s.dropTag w).quiesceElapsed = s.quiesceElapsed := rfl
@[simp] theorem State.dropTag_sqBaseLo (w : Work) : (s.dropTag w).sqBaseLo = s.sqBaseLo := rfl
@[simp] theorem State.dropTag_sqBaseHi (w : Work) : (s.dropTag w).sqBaseHi = s.sqBaseHi := rfl
@[simp] theorem State.dropTag_sqSize (w : Work) : (s.dropTag w).sqSize = s.sqSize := rfl
@[simp] theorem State.dropTag_cr0BaseLo (w : Work) : (s.dropTag w).cr0BaseLo = s.cr0BaseLo := rfl
@[simp] theorem State.dropTag_cr0BaseHi (w : Work) : (s.dropTag w).cr0BaseHi = s.cr0BaseHi := rfl
@[simp] theorem State.dropTag_cr0Cfg (w : Work) : (s.dropTag w).cr0Cfg = s.cr0Cfg := rfl
@[simp] theorem State.dropTag_busMastering (w : Work) : (s.dropTag w).busMastering = s.busMastering := rfl
@[simp] theorem State.dropTag_msiEnabled (w : Work) : (s.dropTag w).msiEnabled = s.msiEnabled := rfl
@[simp] theorem State.dropTag_vectorsEnabled (w : Work) : (s.dropTag w).vectorsEnabled = s.vectorsEnabled := rfl
@[simp] theorem State.dropTag_vectors (w : Work) : (s.dropTag w).vectors = s.vectors := rfl
@[simp] theorem State.dropTag_heldEvents (w : Work) : (s.dropTag w).heldEvents = s.heldEvents := rfl
@[simp] theorem State.dropTag_linkOut (w : Work) : (s.dropTag w).linkOut = s.linkOut := rfl
@[simp] theorem State.dropTag_readData (w : Work) : (s.dropTag w).readData = s.readData := rfl
@[simp] theorem State.dropTag_choices (w : Work) : (s.dropTag w).choices = s.choices := rfl
@[simp] theorem State.dropTag_pending (w : Work) : (s.dropTag w).pending = s.pending := rfl
@[simp] theorem State.dropTag_train (w : Work) (k : Fin 32) : (s.dropTag w).train k = s.train k := rfl
@[simp] theorem State.dropTag_capture (w : Work) (k : Fin 16) : (s.dropTag w).capture k = s.capture k := rfl
@[simp] theorem State.dropTag_line (w : Work) (k : Fin 16) : (s.dropTag w).line k = s.line k := rfl
@[simp] theorem State.dropTag_input (w : Work) (k : Fin 8) : (s.dropTag w).input k = s.input k := rfl
@[simp] theorem State.dropTag_ring (w : Work) (k : Fin 4) : (s.dropTag w).ring k = s.ring k := rfl

/-! reserve -/

@[simp] theorem State.reserve_deviceTime (i : Fin 4) : (s.reserve i).deviceTime = s.deviceTime := rfl
@[simp] theorem State.reserve_timeRestart (i : Fin 4) : (s.reserve i).timeRestart = s.timeRestart := rfl
@[simp] theorem State.reserve_timeCapture (i : Fin 4) : (s.reserve i).timeCapture = s.timeCapture := rfl
@[simp] theorem State.reserve_refclk (i : Fin 4) : (s.reserve i).refclk = s.refclk := rfl
@[simp] theorem State.reserve_resetHeld (i : Fin 4) : (s.reserve i).resetHeld = s.resetHeld := rfl
@[simp] theorem State.reserve_calendar (i : Fin 4) : (s.reserve i).calendar = s.calendar := rfl
@[simp] theorem State.reserve_admission (i : Fin 4) : (s.reserve i).admission = s.admission := rfl
@[simp] theorem State.reserve_trains (i : Fin 4) : (s.reserve i).trains = s.trains := rfl
@[simp] theorem State.reserve_lines (i : Fin 4) : (s.reserve i).lines = s.lines := rfl
@[simp] theorem State.reserve_inputs (i : Fin 4) : (s.reserve i).inputs = s.inputs := rfl
@[simp] theorem State.reserve_captures (i : Fin 4) : (s.reserve i).captures = s.captures := rfl
@[simp] theorem State.reserve_head (i : Fin 4) : (s.reserve i).head = s.head := rfl
@[simp] theorem State.reserve_tail (i : Fin 4) : (s.reserve i).tail = s.tail := rfl
@[simp] theorem State.reserve_fetch (i : Fin 4) : (s.reserve i).fetch = s.fetch := rfl
@[simp] theorem State.reserve_discardedReads (i : Fin 4) : (s.reserve i).discardedReads = s.discardedReads := rfl
@[simp] theorem State.reserve_admissionCounter (i : Fin 4) : (s.reserve i).admissionCounter = s.admissionCounter := rfl
@[simp] theorem State.reserve_tagMap (i : Fin 4) : (s.reserve i).tagMap = s.tagMap := rfl
@[simp] theorem State.reserve_haltMessage (i : Fin 4) : (s.reserve i).haltMessage = s.haltMessage := rfl
@[simp] theorem State.reserve_closing (i : Fin 4) : (s.reserve i).closing = s.closing := rfl
@[simp] theorem State.reserve_device (i : Fin 4) : (s.reserve i).device = s.device := rfl
@[simp] theorem State.reserve_lastCause (i : Fin 4) : (s.reserve i).lastCause = s.lastCause := rfl
@[simp] theorem State.reserve_discardedCount (i : Fin 4) : (s.reserve i).discardedCount = s.discardedCount := rfl
@[simp] theorem State.reserve_commandDropped (i : Fin 4) : (s.reserve i).commandDropped = s.commandDropped := rfl
@[simp] theorem State.reserve_quiesceElapsed (i : Fin 4) : (s.reserve i).quiesceElapsed = s.quiesceElapsed := rfl
@[simp] theorem State.reserve_sqBaseLo (i : Fin 4) : (s.reserve i).sqBaseLo = s.sqBaseLo := rfl
@[simp] theorem State.reserve_sqBaseHi (i : Fin 4) : (s.reserve i).sqBaseHi = s.sqBaseHi := rfl
@[simp] theorem State.reserve_sqSize (i : Fin 4) : (s.reserve i).sqSize = s.sqSize := rfl
@[simp] theorem State.reserve_cr0BaseLo (i : Fin 4) : (s.reserve i).cr0BaseLo = s.cr0BaseLo := rfl
@[simp] theorem State.reserve_cr0BaseHi (i : Fin 4) : (s.reserve i).cr0BaseHi = s.cr0BaseHi := rfl
@[simp] theorem State.reserve_cr0Cfg (i : Fin 4) : (s.reserve i).cr0Cfg = s.cr0Cfg := rfl
@[simp] theorem State.reserve_busMastering (i : Fin 4) : (s.reserve i).busMastering = s.busMastering := rfl
@[simp] theorem State.reserve_msiEnabled (i : Fin 4) : (s.reserve i).msiEnabled = s.msiEnabled := rfl
@[simp] theorem State.reserve_vectorsEnabled (i : Fin 4) : (s.reserve i).vectorsEnabled = s.vectorsEnabled := rfl
@[simp] theorem State.reserve_vectors (i : Fin 4) : (s.reserve i).vectors = s.vectors := rfl
@[simp] theorem State.reserve_heldEvents (i : Fin 4) : (s.reserve i).heldEvents = s.heldEvents := rfl
@[simp] theorem State.reserve_linkOut (i : Fin 4) : (s.reserve i).linkOut = s.linkOut := rfl
@[simp] theorem State.reserve_readData (i : Fin 4) : (s.reserve i).readData = s.readData := rfl
@[simp] theorem State.reserve_choices (i : Fin 4) : (s.reserve i).choices = s.choices := rfl
@[simp] theorem State.reserve_pending (i : Fin 4) : (s.reserve i).pending = s.pending := rfl
@[simp] theorem State.reserve_train (i : Fin 4) (k : Fin 32) : (s.reserve i).train k = s.train k := rfl
@[simp] theorem State.reserve_capture (i : Fin 4) (k : Fin 16) : (s.reserve i).capture k = s.capture k := rfl
@[simp] theorem State.reserve_line (i : Fin 4) (k : Fin 16) : (s.reserve i).line k = s.line k := rfl
@[simp] theorem State.reserve_input (i : Fin 4) (k : Fin 8) : (s.reserve i).input k = s.input k := rfl

/-! stageFinal -/

@[simp] theorem State.stageFinal_deviceTime (i : Fin 4) (c : Completion) : (s.stageFinal i c).deviceTime = s.deviceTime := rfl
@[simp] theorem State.stageFinal_timeRestart (i : Fin 4) (c : Completion) : (s.stageFinal i c).timeRestart = s.timeRestart := rfl
@[simp] theorem State.stageFinal_timeCapture (i : Fin 4) (c : Completion) : (s.stageFinal i c).timeCapture = s.timeCapture := rfl
@[simp] theorem State.stageFinal_refclk (i : Fin 4) (c : Completion) : (s.stageFinal i c).refclk = s.refclk := rfl
@[simp] theorem State.stageFinal_resetHeld (i : Fin 4) (c : Completion) : (s.stageFinal i c).resetHeld = s.resetHeld := rfl
@[simp] theorem State.stageFinal_calendar (i : Fin 4) (c : Completion) : (s.stageFinal i c).calendar = s.calendar := rfl
@[simp] theorem State.stageFinal_admission (i : Fin 4) (c : Completion) : (s.stageFinal i c).admission = s.admission := rfl
@[simp] theorem State.stageFinal_trains (i : Fin 4) (c : Completion) : (s.stageFinal i c).trains = s.trains := rfl
@[simp] theorem State.stageFinal_lines (i : Fin 4) (c : Completion) : (s.stageFinal i c).lines = s.lines := rfl
@[simp] theorem State.stageFinal_inputs (i : Fin 4) (c : Completion) : (s.stageFinal i c).inputs = s.inputs := rfl
@[simp] theorem State.stageFinal_captures (i : Fin 4) (c : Completion) : (s.stageFinal i c).captures = s.captures := rfl
@[simp] theorem State.stageFinal_head (i : Fin 4) (c : Completion) : (s.stageFinal i c).head = s.head := rfl
@[simp] theorem State.stageFinal_tail (i : Fin 4) (c : Completion) : (s.stageFinal i c).tail = s.tail := rfl
@[simp] theorem State.stageFinal_fetch (i : Fin 4) (c : Completion) : (s.stageFinal i c).fetch = s.fetch := rfl
@[simp] theorem State.stageFinal_discardedReads (i : Fin 4) (c : Completion) : (s.stageFinal i c).discardedReads = s.discardedReads := rfl
@[simp] theorem State.stageFinal_admissionCounter (i : Fin 4) (c : Completion) : (s.stageFinal i c).admissionCounter = s.admissionCounter := rfl
@[simp] theorem State.stageFinal_tagMap (i : Fin 4) (c : Completion) : (s.stageFinal i c).tagMap = s.tagMap := rfl
@[simp] theorem State.stageFinal_haltMessage (i : Fin 4) (c : Completion) : (s.stageFinal i c).haltMessage = s.haltMessage := rfl
@[simp] theorem State.stageFinal_closing (i : Fin 4) (c : Completion) : (s.stageFinal i c).closing = s.closing := rfl
@[simp] theorem State.stageFinal_device (i : Fin 4) (c : Completion) : (s.stageFinal i c).device = s.device := rfl
@[simp] theorem State.stageFinal_lastCause (i : Fin 4) (c : Completion) : (s.stageFinal i c).lastCause = s.lastCause := rfl
@[simp] theorem State.stageFinal_discardedCount (i : Fin 4) (c : Completion) : (s.stageFinal i c).discardedCount = s.discardedCount := rfl
@[simp] theorem State.stageFinal_commandDropped (i : Fin 4) (c : Completion) : (s.stageFinal i c).commandDropped = s.commandDropped := rfl
@[simp] theorem State.stageFinal_quiesceElapsed (i : Fin 4) (c : Completion) : (s.stageFinal i c).quiesceElapsed = s.quiesceElapsed := rfl
@[simp] theorem State.stageFinal_sqBaseLo (i : Fin 4) (c : Completion) : (s.stageFinal i c).sqBaseLo = s.sqBaseLo := rfl
@[simp] theorem State.stageFinal_sqBaseHi (i : Fin 4) (c : Completion) : (s.stageFinal i c).sqBaseHi = s.sqBaseHi := rfl
@[simp] theorem State.stageFinal_sqSize (i : Fin 4) (c : Completion) : (s.stageFinal i c).sqSize = s.sqSize := rfl
@[simp] theorem State.stageFinal_cr0BaseLo (i : Fin 4) (c : Completion) : (s.stageFinal i c).cr0BaseLo = s.cr0BaseLo := rfl
@[simp] theorem State.stageFinal_cr0BaseHi (i : Fin 4) (c : Completion) : (s.stageFinal i c).cr0BaseHi = s.cr0BaseHi := rfl
@[simp] theorem State.stageFinal_cr0Cfg (i : Fin 4) (c : Completion) : (s.stageFinal i c).cr0Cfg = s.cr0Cfg := rfl
@[simp] theorem State.stageFinal_busMastering (i : Fin 4) (c : Completion) : (s.stageFinal i c).busMastering = s.busMastering := rfl
@[simp] theorem State.stageFinal_msiEnabled (i : Fin 4) (c : Completion) : (s.stageFinal i c).msiEnabled = s.msiEnabled := rfl
@[simp] theorem State.stageFinal_vectorsEnabled (i : Fin 4) (c : Completion) : (s.stageFinal i c).vectorsEnabled = s.vectorsEnabled := rfl
@[simp] theorem State.stageFinal_vectors (i : Fin 4) (c : Completion) : (s.stageFinal i c).vectors = s.vectors := rfl
@[simp] theorem State.stageFinal_heldEvents (i : Fin 4) (c : Completion) : (s.stageFinal i c).heldEvents = s.heldEvents := rfl
@[simp] theorem State.stageFinal_linkOut (i : Fin 4) (c : Completion) : (s.stageFinal i c).linkOut = s.linkOut := rfl
@[simp] theorem State.stageFinal_readData (i : Fin 4) (c : Completion) : (s.stageFinal i c).readData = s.readData := rfl
@[simp] theorem State.stageFinal_choices (i : Fin 4) (c : Completion) : (s.stageFinal i c).choices = s.choices := rfl
@[simp] theorem State.stageFinal_pending (i : Fin 4) (c : Completion) : (s.stageFinal i c).pending = s.pending := rfl
@[simp] theorem State.stageFinal_train (i : Fin 4) (c : Completion) (k : Fin 32) : (s.stageFinal i c).train k = s.train k := rfl
@[simp] theorem State.stageFinal_capture (i : Fin 4) (c : Completion) (k : Fin 16) : (s.stageFinal i c).capture k = s.capture k := rfl
@[simp] theorem State.stageFinal_line (i : Fin 4) (c : Completion) (k : Fin 16) : (s.stageFinal i c).line k = s.line k := rfl
@[simp] theorem State.stageFinal_input (i : Fin 4) (c : Completion) (k : Fin 8) : (s.stageFinal i c).input k = s.input k := rfl

/-! stageFree -/

@[simp] theorem State.stageFree_deviceTime (i : Fin 4) (c : Completion) : (s.stageFree i c).deviceTime = s.deviceTime := rfl
@[simp] theorem State.stageFree_timeRestart (i : Fin 4) (c : Completion) : (s.stageFree i c).timeRestart = s.timeRestart := rfl
@[simp] theorem State.stageFree_timeCapture (i : Fin 4) (c : Completion) : (s.stageFree i c).timeCapture = s.timeCapture := rfl
@[simp] theorem State.stageFree_refclk (i : Fin 4) (c : Completion) : (s.stageFree i c).refclk = s.refclk := rfl
@[simp] theorem State.stageFree_resetHeld (i : Fin 4) (c : Completion) : (s.stageFree i c).resetHeld = s.resetHeld := rfl
@[simp] theorem State.stageFree_calendar (i : Fin 4) (c : Completion) : (s.stageFree i c).calendar = s.calendar := rfl
@[simp] theorem State.stageFree_admission (i : Fin 4) (c : Completion) : (s.stageFree i c).admission = s.admission := rfl
@[simp] theorem State.stageFree_trains (i : Fin 4) (c : Completion) : (s.stageFree i c).trains = s.trains := rfl
@[simp] theorem State.stageFree_lines (i : Fin 4) (c : Completion) : (s.stageFree i c).lines = s.lines := rfl
@[simp] theorem State.stageFree_inputs (i : Fin 4) (c : Completion) : (s.stageFree i c).inputs = s.inputs := rfl
@[simp] theorem State.stageFree_captures (i : Fin 4) (c : Completion) : (s.stageFree i c).captures = s.captures := rfl
@[simp] theorem State.stageFree_head (i : Fin 4) (c : Completion) : (s.stageFree i c).head = s.head := rfl
@[simp] theorem State.stageFree_tail (i : Fin 4) (c : Completion) : (s.stageFree i c).tail = s.tail := rfl
@[simp] theorem State.stageFree_fetch (i : Fin 4) (c : Completion) : (s.stageFree i c).fetch = s.fetch := rfl
@[simp] theorem State.stageFree_discardedReads (i : Fin 4) (c : Completion) : (s.stageFree i c).discardedReads = s.discardedReads := rfl
@[simp] theorem State.stageFree_admissionCounter (i : Fin 4) (c : Completion) : (s.stageFree i c).admissionCounter = s.admissionCounter := rfl
@[simp] theorem State.stageFree_tagMap (i : Fin 4) (c : Completion) : (s.stageFree i c).tagMap = s.tagMap := rfl
@[simp] theorem State.stageFree_haltMessage (i : Fin 4) (c : Completion) : (s.stageFree i c).haltMessage = s.haltMessage := rfl
@[simp] theorem State.stageFree_closing (i : Fin 4) (c : Completion) : (s.stageFree i c).closing = s.closing := rfl
@[simp] theorem State.stageFree_device (i : Fin 4) (c : Completion) : (s.stageFree i c).device = s.device := rfl
@[simp] theorem State.stageFree_lastCause (i : Fin 4) (c : Completion) : (s.stageFree i c).lastCause = s.lastCause := rfl
@[simp] theorem State.stageFree_discardedCount (i : Fin 4) (c : Completion) : (s.stageFree i c).discardedCount = s.discardedCount := rfl
@[simp] theorem State.stageFree_commandDropped (i : Fin 4) (c : Completion) : (s.stageFree i c).commandDropped = s.commandDropped := rfl
@[simp] theorem State.stageFree_quiesceElapsed (i : Fin 4) (c : Completion) : (s.stageFree i c).quiesceElapsed = s.quiesceElapsed := rfl
@[simp] theorem State.stageFree_sqBaseLo (i : Fin 4) (c : Completion) : (s.stageFree i c).sqBaseLo = s.sqBaseLo := rfl
@[simp] theorem State.stageFree_sqBaseHi (i : Fin 4) (c : Completion) : (s.stageFree i c).sqBaseHi = s.sqBaseHi := rfl
@[simp] theorem State.stageFree_sqSize (i : Fin 4) (c : Completion) : (s.stageFree i c).sqSize = s.sqSize := rfl
@[simp] theorem State.stageFree_cr0BaseLo (i : Fin 4) (c : Completion) : (s.stageFree i c).cr0BaseLo = s.cr0BaseLo := rfl
@[simp] theorem State.stageFree_cr0BaseHi (i : Fin 4) (c : Completion) : (s.stageFree i c).cr0BaseHi = s.cr0BaseHi := rfl
@[simp] theorem State.stageFree_cr0Cfg (i : Fin 4) (c : Completion) : (s.stageFree i c).cr0Cfg = s.cr0Cfg := rfl
@[simp] theorem State.stageFree_busMastering (i : Fin 4) (c : Completion) : (s.stageFree i c).busMastering = s.busMastering := rfl
@[simp] theorem State.stageFree_msiEnabled (i : Fin 4) (c : Completion) : (s.stageFree i c).msiEnabled = s.msiEnabled := rfl
@[simp] theorem State.stageFree_vectorsEnabled (i : Fin 4) (c : Completion) : (s.stageFree i c).vectorsEnabled = s.vectorsEnabled := rfl
@[simp] theorem State.stageFree_vectors (i : Fin 4) (c : Completion) : (s.stageFree i c).vectors = s.vectors := rfl
@[simp] theorem State.stageFree_heldEvents (i : Fin 4) (c : Completion) : (s.stageFree i c).heldEvents = s.heldEvents := rfl
@[simp] theorem State.stageFree_linkOut (i : Fin 4) (c : Completion) : (s.stageFree i c).linkOut = s.linkOut := rfl
@[simp] theorem State.stageFree_readData (i : Fin 4) (c : Completion) : (s.stageFree i c).readData = s.readData := rfl
@[simp] theorem State.stageFree_choices (i : Fin 4) (c : Completion) : (s.stageFree i c).choices = s.choices := rfl
@[simp] theorem State.stageFree_pending (i : Fin 4) (c : Completion) : (s.stageFree i c).pending = s.pending := rfl
@[simp] theorem State.stageFree_train (i : Fin 4) (c : Completion) (k : Fin 32) : (s.stageFree i c).train k = s.train k := rfl
@[simp] theorem State.stageFree_capture (i : Fin 4) (c : Completion) (k : Fin 16) : (s.stageFree i c).capture k = s.capture k := rfl
@[simp] theorem State.stageFree_line (i : Fin 4) (c : Completion) (k : Fin 16) : (s.stageFree i c).line k = s.line k := rfl
@[simp] theorem State.stageFree_input (i : Fin 4) (c : Completion) (k : Fin 8) : (s.stageFree i c).input k = s.input k := rfl

/-! levelRequest -/

@[simp] theorem State.levelRequest_deviceTime (i : Fin 16) (v : LineLevel) : (s.levelRequest i v).deviceTime = s.deviceTime := rfl
@[simp] theorem State.levelRequest_timeRestart (i : Fin 16) (v : LineLevel) : (s.levelRequest i v).timeRestart = s.timeRestart := rfl
@[simp] theorem State.levelRequest_timeCapture (i : Fin 16) (v : LineLevel) : (s.levelRequest i v).timeCapture = s.timeCapture := rfl
@[simp] theorem State.levelRequest_refclk (i : Fin 16) (v : LineLevel) : (s.levelRequest i v).refclk = s.refclk := rfl
@[simp] theorem State.levelRequest_resetHeld (i : Fin 16) (v : LineLevel) : (s.levelRequest i v).resetHeld = s.resetHeld := rfl
@[simp] theorem State.levelRequest_calendar (i : Fin 16) (v : LineLevel) : (s.levelRequest i v).calendar = s.calendar := rfl
@[simp] theorem State.levelRequest_admission (i : Fin 16) (v : LineLevel) : (s.levelRequest i v).admission = s.admission := rfl
@[simp] theorem State.levelRequest_trains (i : Fin 16) (v : LineLevel) : (s.levelRequest i v).trains = s.trains := rfl
@[simp] theorem State.levelRequest_inputs (i : Fin 16) (v : LineLevel) : (s.levelRequest i v).inputs = s.inputs := rfl
@[simp] theorem State.levelRequest_captures (i : Fin 16) (v : LineLevel) : (s.levelRequest i v).captures = s.captures := rfl
@[simp] theorem State.levelRequest_head (i : Fin 16) (v : LineLevel) : (s.levelRequest i v).head = s.head := rfl
@[simp] theorem State.levelRequest_tail (i : Fin 16) (v : LineLevel) : (s.levelRequest i v).tail = s.tail := rfl
@[simp] theorem State.levelRequest_fetch (i : Fin 16) (v : LineLevel) : (s.levelRequest i v).fetch = s.fetch := rfl
@[simp] theorem State.levelRequest_discardedReads (i : Fin 16) (v : LineLevel) : (s.levelRequest i v).discardedReads = s.discardedReads := rfl
@[simp] theorem State.levelRequest_admissionCounter (i : Fin 16) (v : LineLevel) : (s.levelRequest i v).admissionCounter = s.admissionCounter := rfl
@[simp] theorem State.levelRequest_tagMap (i : Fin 16) (v : LineLevel) : (s.levelRequest i v).tagMap = s.tagMap := rfl
@[simp] theorem State.levelRequest_rings (i : Fin 16) (v : LineLevel) : (s.levelRequest i v).rings = s.rings := rfl
@[simp] theorem State.levelRequest_haltMessage (i : Fin 16) (v : LineLevel) : (s.levelRequest i v).haltMessage = s.haltMessage := rfl
@[simp] theorem State.levelRequest_closing (i : Fin 16) (v : LineLevel) : (s.levelRequest i v).closing = s.closing := rfl
@[simp] theorem State.levelRequest_device (i : Fin 16) (v : LineLevel) : (s.levelRequest i v).device = s.device := rfl
@[simp] theorem State.levelRequest_lastCause (i : Fin 16) (v : LineLevel) : (s.levelRequest i v).lastCause = s.lastCause := rfl
@[simp] theorem State.levelRequest_discardedCount (i : Fin 16) (v : LineLevel) : (s.levelRequest i v).discardedCount = s.discardedCount := rfl
@[simp] theorem State.levelRequest_commandDropped (i : Fin 16) (v : LineLevel) : (s.levelRequest i v).commandDropped = s.commandDropped := rfl
@[simp] theorem State.levelRequest_quiesceElapsed (i : Fin 16) (v : LineLevel) : (s.levelRequest i v).quiesceElapsed = s.quiesceElapsed := rfl
@[simp] theorem State.levelRequest_sqBaseLo (i : Fin 16) (v : LineLevel) : (s.levelRequest i v).sqBaseLo = s.sqBaseLo := rfl
@[simp] theorem State.levelRequest_sqBaseHi (i : Fin 16) (v : LineLevel) : (s.levelRequest i v).sqBaseHi = s.sqBaseHi := rfl
@[simp] theorem State.levelRequest_sqSize (i : Fin 16) (v : LineLevel) : (s.levelRequest i v).sqSize = s.sqSize := rfl
@[simp] theorem State.levelRequest_cr0BaseLo (i : Fin 16) (v : LineLevel) : (s.levelRequest i v).cr0BaseLo = s.cr0BaseLo := rfl
@[simp] theorem State.levelRequest_cr0BaseHi (i : Fin 16) (v : LineLevel) : (s.levelRequest i v).cr0BaseHi = s.cr0BaseHi := rfl
@[simp] theorem State.levelRequest_cr0Cfg (i : Fin 16) (v : LineLevel) : (s.levelRequest i v).cr0Cfg = s.cr0Cfg := rfl
@[simp] theorem State.levelRequest_busMastering (i : Fin 16) (v : LineLevel) : (s.levelRequest i v).busMastering = s.busMastering := rfl
@[simp] theorem State.levelRequest_msiEnabled (i : Fin 16) (v : LineLevel) : (s.levelRequest i v).msiEnabled = s.msiEnabled := rfl
@[simp] theorem State.levelRequest_vectorsEnabled (i : Fin 16) (v : LineLevel) : (s.levelRequest i v).vectorsEnabled = s.vectorsEnabled := rfl
@[simp] theorem State.levelRequest_vectors (i : Fin 16) (v : LineLevel) : (s.levelRequest i v).vectors = s.vectors := rfl
@[simp] theorem State.levelRequest_heldEvents (i : Fin 16) (v : LineLevel) : (s.levelRequest i v).heldEvents = s.heldEvents := rfl
@[simp] theorem State.levelRequest_linkOut (i : Fin 16) (v : LineLevel) : (s.levelRequest i v).linkOut = s.linkOut := rfl
@[simp] theorem State.levelRequest_readData (i : Fin 16) (v : LineLevel) : (s.levelRequest i v).readData = s.readData := rfl
@[simp] theorem State.levelRequest_choices (i : Fin 16) (v : LineLevel) : (s.levelRequest i v).choices = s.choices := rfl
@[simp] theorem State.levelRequest_pending (i : Fin 16) (v : LineLevel) : (s.levelRequest i v).pending = s.pending := rfl
@[simp] theorem State.levelRequest_train (i : Fin 16) (v : LineLevel) (k : Fin 32) : (s.levelRequest i v).train k = s.train k := rfl
@[simp] theorem State.levelRequest_capture (i : Fin 16) (v : LineLevel) (k : Fin 16) : (s.levelRequest i v).capture k = s.capture k := rfl
@[simp] theorem State.levelRequest_input (i : Fin 16) (v : LineLevel) (k : Fin 8) : (s.levelRequest i v).input k = s.input k := rfl
@[simp] theorem State.levelRequest_ring (i : Fin 16) (v : LineLevel) (k : Fin 4) : (s.levelRequest i v).ring k = s.ring k := rfl

/-! handOver -/

@[simp] theorem State.handOver_deviceTime (w : PostedWrite) : (s.handOver w).deviceTime = s.deviceTime := rfl
@[simp] theorem State.handOver_timeRestart (w : PostedWrite) : (s.handOver w).timeRestart = s.timeRestart := rfl
@[simp] theorem State.handOver_timeCapture (w : PostedWrite) : (s.handOver w).timeCapture = s.timeCapture := rfl
@[simp] theorem State.handOver_refclk (w : PostedWrite) : (s.handOver w).refclk = s.refclk := rfl
@[simp] theorem State.handOver_resetHeld (w : PostedWrite) : (s.handOver w).resetHeld = s.resetHeld := rfl
@[simp] theorem State.handOver_calendar (w : PostedWrite) : (s.handOver w).calendar = s.calendar := rfl
@[simp] theorem State.handOver_admission (w : PostedWrite) : (s.handOver w).admission = s.admission := rfl
@[simp] theorem State.handOver_trains (w : PostedWrite) : (s.handOver w).trains = s.trains := rfl
@[simp] theorem State.handOver_lines (w : PostedWrite) : (s.handOver w).lines = s.lines := rfl
@[simp] theorem State.handOver_inputs (w : PostedWrite) : (s.handOver w).inputs = s.inputs := rfl
@[simp] theorem State.handOver_captures (w : PostedWrite) : (s.handOver w).captures = s.captures := rfl
@[simp] theorem State.handOver_head (w : PostedWrite) : (s.handOver w).head = s.head := rfl
@[simp] theorem State.handOver_tail (w : PostedWrite) : (s.handOver w).tail = s.tail := rfl
@[simp] theorem State.handOver_fetch (w : PostedWrite) : (s.handOver w).fetch = s.fetch := rfl
@[simp] theorem State.handOver_discardedReads (w : PostedWrite) : (s.handOver w).discardedReads = s.discardedReads := rfl
@[simp] theorem State.handOver_admissionCounter (w : PostedWrite) : (s.handOver w).admissionCounter = s.admissionCounter := rfl
@[simp] theorem State.handOver_tagMap (w : PostedWrite) : (s.handOver w).tagMap = s.tagMap := rfl
@[simp] theorem State.handOver_rings (w : PostedWrite) : (s.handOver w).rings = s.rings := rfl
@[simp] theorem State.handOver_haltMessage (w : PostedWrite) : (s.handOver w).haltMessage = s.haltMessage := rfl
@[simp] theorem State.handOver_closing (w : PostedWrite) : (s.handOver w).closing = s.closing := rfl
@[simp] theorem State.handOver_device (w : PostedWrite) : (s.handOver w).device = s.device := rfl
@[simp] theorem State.handOver_lastCause (w : PostedWrite) : (s.handOver w).lastCause = s.lastCause := rfl
@[simp] theorem State.handOver_discardedCount (w : PostedWrite) : (s.handOver w).discardedCount = s.discardedCount := rfl
@[simp] theorem State.handOver_commandDropped (w : PostedWrite) : (s.handOver w).commandDropped = s.commandDropped := rfl
@[simp] theorem State.handOver_quiesceElapsed (w : PostedWrite) : (s.handOver w).quiesceElapsed = s.quiesceElapsed := rfl
@[simp] theorem State.handOver_sqBaseLo (w : PostedWrite) : (s.handOver w).sqBaseLo = s.sqBaseLo := rfl
@[simp] theorem State.handOver_sqBaseHi (w : PostedWrite) : (s.handOver w).sqBaseHi = s.sqBaseHi := rfl
@[simp] theorem State.handOver_sqSize (w : PostedWrite) : (s.handOver w).sqSize = s.sqSize := rfl
@[simp] theorem State.handOver_cr0BaseLo (w : PostedWrite) : (s.handOver w).cr0BaseLo = s.cr0BaseLo := rfl
@[simp] theorem State.handOver_cr0BaseHi (w : PostedWrite) : (s.handOver w).cr0BaseHi = s.cr0BaseHi := rfl
@[simp] theorem State.handOver_cr0Cfg (w : PostedWrite) : (s.handOver w).cr0Cfg = s.cr0Cfg := rfl
@[simp] theorem State.handOver_busMastering (w : PostedWrite) : (s.handOver w).busMastering = s.busMastering := rfl
@[simp] theorem State.handOver_msiEnabled (w : PostedWrite) : (s.handOver w).msiEnabled = s.msiEnabled := rfl
@[simp] theorem State.handOver_vectorsEnabled (w : PostedWrite) : (s.handOver w).vectorsEnabled = s.vectorsEnabled := rfl
@[simp] theorem State.handOver_vectors (w : PostedWrite) : (s.handOver w).vectors = s.vectors := rfl
@[simp] theorem State.handOver_heldEvents (w : PostedWrite) : (s.handOver w).heldEvents = s.heldEvents := rfl
@[simp] theorem State.handOver_readData (w : PostedWrite) : (s.handOver w).readData = s.readData := rfl
@[simp] theorem State.handOver_choices (w : PostedWrite) : (s.handOver w).choices = s.choices := rfl
@[simp] theorem State.handOver_pending (w : PostedWrite) : (s.handOver w).pending = s.pending := rfl
@[simp] theorem State.handOver_train (w : PostedWrite) (k : Fin 32) : (s.handOver w).train k = s.train k := rfl
@[simp] theorem State.handOver_capture (w : PostedWrite) (k : Fin 16) : (s.handOver w).capture k = s.capture k := rfl
@[simp] theorem State.handOver_line (w : PostedWrite) (k : Fin 16) : (s.handOver w).line k = s.line k := rfl
@[simp] theorem State.handOver_input (w : PostedWrite) (k : Fin 8) : (s.handOver w).input k = s.input k := rfl
@[simp] theorem State.handOver_ring (w : PostedWrite) (k : Fin 4) : (s.handOver w).ring k = s.ring k := rfl

/-! The tables read back -/

theorem State.train_setTrain (i j : Fin 32) (x : Option Train) :
    (s.setTrain i x).train j = if i = j then x else s.train j := by
  simp only [State.setTrain, State.train, Fin.getElem_fin, Vector.getElem_set, Fin.ext_iff]

@[simp] theorem State.train_setTrain_self (i : Fin 32) (x : Option Train) : (s.setTrain i x).train i = x := by
  simp only [State.train_setTrain, if_true]

theorem State.train_setTrain_of_ne (i j : Fin 32) (x : Option Train) (h : i ≠ j) : (s.setTrain i x).train j = s.train j := by
  simp only [State.train_setTrain, if_neg h]

theorem State.capture_setCapture (i j : Fin 16) (x : Option Capture) :
    (s.setCapture i x).capture j = if i = j then x else s.capture j := by
  simp only [State.setCapture, State.capture, Fin.getElem_fin, Vector.getElem_set, Fin.ext_iff]

@[simp] theorem State.capture_setCapture_self (i : Fin 16) (x : Option Capture) : (s.setCapture i x).capture i = x := by
  simp only [State.capture_setCapture, if_true]

theorem State.capture_setCapture_of_ne (i j : Fin 16) (x : Option Capture) (h : i ≠ j) : (s.setCapture i x).capture j = s.capture j := by
  simp only [State.capture_setCapture, if_neg h]

theorem State.line_setLine (i j : Fin 16) (x : Line) :
    (s.setLine i x).line j = if i = j then x else s.line j := by
  simp only [State.setLine, State.line, Fin.getElem_fin, Vector.getElem_set, Fin.ext_iff]

@[simp] theorem State.line_setLine_self (i : Fin 16) (x : Line) : (s.setLine i x).line i = x := by
  simp only [State.line_setLine, if_true]

theorem State.line_setLine_of_ne (i j : Fin 16) (x : Line) (h : i ≠ j) : (s.setLine i x).line j = s.line j := by
  simp only [State.line_setLine, if_neg h]

theorem State.input_setInput (i j : Fin 8) (x : InputLine) :
    (s.setInput i x).input j = if i = j then x else s.input j := by
  simp only [State.setInput, State.input, Fin.getElem_fin, Vector.getElem_set, Fin.ext_iff]

@[simp] theorem State.input_setInput_self (i : Fin 8) (x : InputLine) : (s.setInput i x).input i = x := by
  simp only [State.input_setInput, if_true]

theorem State.input_setInput_of_ne (i j : Fin 8) (x : InputLine) (h : i ≠ j) : (s.setInput i x).input j = s.input j := by
  simp only [State.input_setInput, if_neg h]

theorem State.ring_setRing (i j : Fin 4) (x : Ring) :
    (s.setRing i x).ring j = if i = j then x else s.ring j := by
  simp only [State.setRing, State.ring, Fin.getElem_fin, Vector.getElem_set, Fin.ext_iff]

@[simp] theorem State.ring_setRing_self (i : Fin 4) (x : Ring) : (s.setRing i x).ring i = x := by
  simp only [State.ring_setRing, if_true]

theorem State.ring_setRing_of_ne (i j : Fin 4) (x : Ring) (h : i ≠ j) : (s.setRing i x).ring j = s.ring j := by
  simp only [State.ring_setRing, if_neg h]

end Sys2Proof.Machine
end

