-- ==== Sys2Proof/Laws/Calendar.lean ====
section
/-! SUPPORT. What the calendar's operations can do: insertion, delivery and removal (chapter 1). -/

namespace Sys2Proof.Machine

/-- A time `n` ticks ahead, with `n` inside the horizon, lies in the future (R4, R5). -/
theorem isFuture_after (now : Time) (n : Nat) (h1 : 1 ≤ n) (h2 : n ≤ Config.horizon) :
    isFuture now (after now n) = true := by
  have e : (after now n).ahead now = n := by
    simp only [Time.ahead, after, Config.horizon] at *
    rw [BitVec.add_comm, BitVec.add_sub_cancel, BitVec.toNat_ofNat]
    exact Nat.mod_eq_of_lt (by omega)
  simp only [isFuture, e, Bool.and_eq_true, decide_eq_true_eq]
  exact ⟨h1, h2⟩

/-- The present is not in the future (R4). -/
theorem isFuture_self (now : Time) : isFuture now now = false := by
  simp [isFuture, Time.ahead]

/-- An insertion adds the entry and moves no other out (R12). -/
theorem placeEntry_perm (b : Entry → Entry → Bool) (e : Entry) (l : List Entry) :
    (placeEntry b e l).Perm (e :: l) := by
  induction l with
  | nil => exact List.Perm.refl _
  | cons f fs ih =>
    simp only [placeEntry]
    split
    · exact List.Perm.refl _
    · exact (List.Perm.cons f ih).trans (List.Perm.swap e f fs)

theorem mem_placeEntry (b : Entry → Entry → Bool) (e x : Entry) (l : List Entry) :
    x ∈ placeEntry b e l ↔ x = e ∨ x ∈ l := by
  rw [(placeEntry_perm b e l).mem_iff, List.mem_cons]

/-- All that an insertion request can do (R13). -/
theorem State.request_cases (s : State) (o : Owner) (a : Action) (due : Time) :
    (isFuture s.deviceTime due = true ∧ s.request o a due =
        some { s with calendar := placeEntry s.standsBefore { due := due, owner := o, action := a } s.calendar })
      ∨ (isFuture s.deviceTime due = false ∧ s.request o a due = none) := by
  by_cases h : isFuture s.deviceTime due = true
  · exact .inl ⟨h, by simp only [State.request, h, if_true]⟩
  · exact .inr ⟨by simpa using h, by simp only [State.request, if_neg h]⟩

/-- All that an insertion can do (R13, log 23). -/
theorem State.insert_cases (s : State) (o : Owner) (a : Action) (due : Time) :
    (isFuture s.deviceTime due = true ∧ s.insert o a due =
        { s with calendar := placeEntry s.standsBefore { due := due, owner := o, action := a } s.calendar })
      ∨ (isFuture s.deviceTime due = false ∧ s.insert o a due = s) := by
  rcases s.request_cases o a due with ⟨h, e⟩ | ⟨h, e⟩
  · exact .inl ⟨h, by simp only [State.insert, e, Option.getD_some]⟩
  · exact .inr ⟨h, by simp only [State.insert, e, Option.getD_none]⟩

/-- All that a delivery can do (R15). -/
theorem State.deliver_cases (s : State) (o : Owner) (a : Action) (act : State → State) :
    (s.dueEntry = some { due := s.deviceTime, owner := o, action := a } ∧ s.deliver o a act = act s.popEntry)
      ∨ (s.dueEntry ≠ some { due := s.deviceTime, owner := o, action := a } ∧ s.deliver o a act = s) := by
  by_cases h : s.dueEntry = some { due := s.deviceTime, owner := o, action := a }
  · exact .inl ⟨h, by simp only [State.deliver, if_pos h]⟩
  · exact .inr ⟨h, by simp only [State.deliver, if_neg h]⟩

/-- The entry delivered now is the calendar's head, due now (R12, R15). -/
theorem State.dueEntry_eq_some (s : State) (e : Entry) :
    s.dueEntry = some e ↔ ∃ rest, s.calendar = e :: rest ∧ e.due = s.deviceTime := by
  unfold State.dueEntry
  cases s.calendar with
  | nil => simp
  | cons f fs =>
    by_cases h : f.due = s.deviceTime
    · simp only [h, if_true, Option.some.injEq, List.cons.injEq]
      exact ⟨fun q => ⟨fs, ⟨q, rfl⟩, q ▸ h⟩, fun ⟨_, ⟨q, _⟩, _⟩ => q⟩
    · simp only [if_neg h, reduceCtorEq, List.cons.injEq, false_iff]
      rintro ⟨_, ⟨q, _⟩, d⟩
      exact h (q ▸ d)

/-- What stays in the calendar when a work leaves (R17). -/
theorem State.mem_calendar_leave (s : State) (o : Owner) (e : Entry) :
    e ∈ (s.leave o).calendar ↔ e ∈ s.calendar ∧ e.owner ≠ o := by
  simp [State.leave]

/-- What stays on the admission list when a work leaves (R11, R17). -/
theorem State.mem_admission_leave (s : State) (o w : Owner) :
    w ∈ (s.leave o).admission ↔ w ∈ s.admission ∧ w ≠ o := by
  simp [State.leave]

theorem State.mem_admission_join (s : State) (o w : Owner) :
    w ∈ (s.join o).admission ↔ w ∈ s.admission ∨ w = o := by
  simp [State.join]

end Sys2Proof.Machine
end

