-- ==== Sys2Proof/Laws/CommandUnit.lean ====
section
/-! SUPPORT. All that the command unit's shared operations and the host link's entry can do (chapter 6). -/

namespace Sys2Proof.Machine

variable (s : State)

/-- A read is issued under the four conditions of R117, and else nothing happens. -/
theorem State.issueRead_cases :
    ((s.device = .running ∧ s.fetch = .idle ∧ s.head ≠ s.tail ∧ s.busMastering = true) ∧ s.issueRead =
        { s with fetch :=
            .reading { index := s.head, address := s.sqBase + BitVec.ofNat 64 (64 * s.head), elapsed := 0 } })
      ∨ (¬(s.device = .running ∧ s.fetch = .idle ∧ s.head ≠ s.tail ∧ s.busMastering = true) ∧ s.issueRead = s) := by
  unfold State.issueRead
  split
  · exact .inl ⟨‹_›, rfl⟩
  · exact .inr ⟨‹_›, rfl⟩

/-- A discarded read leaves the unit IDLE and stays on the link, its held answer too; nothing else is
touched (R2, R120). -/
theorem State.discardRead_cases :
    (∃ r, s.fetch = .reading r ∧ s.discardRead =
        { s with
          fetch := .idle, discardedReads := s.discardedReads + 1
          heldEvents := s.heldEvents.map HostEvent.ofDiscarded })
      ∨ ((∀ r, s.fetch ≠ .reading r) ∧ s.discardRead = s) := by
  unfold State.discardRead
  split
  · exact .inl ⟨_, ‹_›, rfl⟩
  · exact .inr ⟨fun r h => by simp_all, rfl⟩

/-- All that a held record can meet when it asks for its place (R123 to R125). -/
theorem State.tryPlace_cases (returned : Time) (c : Submission) :
    ((s.ring (s.target c.header)).hasPlace = true ∧ s.device = .running ∧ s.tryPlace returned c =
        (s.reserve (s.target c.header)).process (s.target c.header) returned c)
      ∨ ((s.ring (s.target c.header)).hasPlace = true ∧ s.device ≠ .running ∧ s.tryPlace returned c =
        (s.reserve (s.target c.header)).answerAborted (s.target c.header) returned c)
      ∨ ((s.ring (s.target c.header)).hasPlace = false ∧ s.tryPlace returned c =
        { s with fetch := .stalled c returned }) := by
  by_cases h : (s.ring (s.target c.header)).hasPlace = true
  · by_cases k : s.device = .running
    · exact .inl ⟨h, k, by simp only [State.tryPlace, h, k, if_true]⟩
    · exact .inr (.inl ⟨h, k, by simp only [State.tryPlace, h, if_neg k, if_true]⟩)
  · exact .inr (.inr ⟨by simpa using h, by simp only [State.tryPlace, if_neg h]⟩)

/-- A retry concerns a held record only (R124). -/
theorem State.retry_cases :
    (∃ c returned, s.fetch = .stalled c returned ∧ s.retry = s.tryPlace returned c)
      ∨ ((∀ c returned, s.fetch ≠ .stalled c returned) ∧ s.retry = s) := by
  unfold State.retry
  split
  · exact .inl ⟨_, _, ‹_›, rfl⟩
  · exact .inr ⟨fun c t h => by simp_all, rfl⟩

/-- All that the data of a read can do (R119, R120). -/
theorem State.readReturned_cases (of : ReadId) (c : Submission) :
    (of = .discarded ∧ s.readReturned of c = { s with discardedReads := s.discardedReads - 1 })
      ∨ (∃ r, of = .outstanding ∧ s.fetch = .reading r ∧ s.device = .running ∧ s.readReturned of c =
          ({ s with head := (s.head + 1) % s.sqSize.toNat } : State).tryPlace s.deviceTime c)
      ∨ (of = .outstanding ∧ s.readReturned of c = s) := by
  unfold State.readReturned
  cases of with
  | discarded => exact .inl ⟨rfl, rfl⟩
  | outstanding =>
    cases h : s.fetch with
    | reading r =>
      by_cases k : s.device = .running
      · exact .inr (.inl ⟨r, rfl, rfl, k, by simp only [if_pos k]⟩)
      · exact .inr (.inr ⟨rfl, by simp only [if_neg k]⟩)
    | idle => exact .inr (.inr ⟨rfl, rfl⟩)
    | stalled _ _ => exact .inr (.inr ⟨rfl, rfl⟩)
    | fenced _ => exact .inr (.inr ⟨rfl, rfl⟩)

/-- All that the arrival of a host event can do (R2, logs 1, 8 and 9). -/
theorem State.hostEvent_cases (e : HostEvent) :
    (s.resetHeld = true ∧ s.hostEvent e = s)
      ∨ (s.resetHeld = false ∧ s.holdsHost = true ∧ s.arrives e = true
        ∧ s.hostEvent e = { s with heldEvents := s.heldEvents ++ [e] })
      ∨ (s.resetHeld = false ∧ s.holdsHost = true ∧ s.arrives e = false ∧ s.hostEvent e = s)
      ∨ (s.resetHeld = false ∧ s.holdsHost = false ∧ s.hostEvent e = s.takeHost e) := by
  unfold State.hostEvent
  cases s.resetHeld <;> cases s.holdsHost <;> cases s.arrives e <;> simp

/-- While the clock runs, no reset is held and nothing waits, a host event is taken at once (R2). -/
theorem State.hostEvent_taken (e : HostEvent) (h1 : s.resetHeld = false) (h2 : s.refclk = .running)
    (h3 : s.heldEvents = []) : s.hostEvent e = s.takeHost e := by
  simp [State.hostEvent, State.holdsHost, h1, h2, h3]

/-- A discard empties no held event and adds none: it only renames the answers of the read (R120). -/
theorem State.discardRead_heldEvents_length : s.discardRead.heldEvents.length = s.heldEvents.length := by
  obtain ⟨_, -, e⟩ | ⟨-, e⟩ := s.discardRead_cases <;> simp [e]

end Sys2Proof.Machine
end

