-- ==== Sys2Proof/Laws/Ends.lean ====
section
/-! SUPPORT. All that the ends of works and the drain can do (chapters 3, 4, 6 and 9). -/

namespace Sys2Proof.Machine

variable (s : State)

/-- Steps 2 to 6 of a train's end, or nothing on a FREE slot (R56). -/
theorem State.closeTrain_cases (i : Fin 32) (st : Status) (cascaded : Bool) :
    (s.train i = none ∧ s.closeTrain i st cascaded = s)
      ∨ ∃ t, s.train i = some t ∧ s.closeTrain i st cascaded =
          (((((s.leave (.train i)).dropTag (.train i)).setLine t.line
            ((s.line t.line).trainEnded i st t.endPolicy)).stageFinal t.ring
            (s.trainEndRecord t st cascaded)).setTrain i none) := by
  unfold State.closeTrain
  cases h : s.train i with
  | none => exact .inl ⟨rfl, rfl⟩
  | some t => exact .inr ⟨t, rfl, rfl⟩

/-- The report of an end matters to a waiting fence only: it ends OK at count 0 in RUNNING, and else its
count is lowered (R138, R141). -/
theorem State.reportEnd_cases :
    ((∀ f, s.fetch ≠ .fenced f) ∧ s.reportEnd = s)
      ∨ (∃ f, s.fetch = .fenced f ∧ f.count - 1 = 0 ∧ s.device = .running ∧ s.reportEnd =
          (s.endFence { f with count := f.count - 1 } .ok).issueRead)
      ∨ (∃ f, s.fetch = .fenced f ∧ ¬(f.count - 1 = 0 ∧ s.device = .running) ∧ s.reportEnd =
          { s with fetch := .fenced { f with count := f.count - 1 } }) := by
  unfold State.reportEnd
  cases h : s.fetch with
  | fenced f =>
    by_cases k : f.count - 1 = 0 ∧ s.device = .running
    · exact .inr (.inl ⟨f, rfl, k.1, k.2, by simp only [if_pos k]⟩)
    · exact .inr (.inr ⟨f, rfl, k, by simp only [if_neg k]⟩)
  | idle => exact .inl ⟨fun f e => by simp at e, rfl⟩
  | reading _ => exact .inl ⟨fun f e => by simp at e, rfl⟩
  | stalled _ _ => exact .inl ⟨fun f e => by simp at e, rfl⟩

/-- The drain either completes, and the device returns to OFF, or nothing happens (R191). -/
theorem State.testDrain_cases :
    (s.device = .quiescing ∧ s.drained = true ∧ s.testDrain = s.toOff .quiesced 0 false)
      ∨ (¬(s.device = .quiescing ∧ s.drained = true) ∧ s.testDrain = s) := by
  unfold State.testDrain
  split
  · exact .inl ⟨(‹_ ∧ _›).1, (‹_ ∧ _›).2, rfl⟩
  · exact .inr ⟨‹_›, rfl⟩

/-- The end of a fence touches the calendar, the admission list, its ring and the fetch state (R138). -/
theorem State.endFence_frame (f : Fence) (st : Status) :
    (s.endFence f st).fetch = .idle ∧ (s.endFence f st).device = s.device
      ∧ (s.endFence f st).trains = s.trains ∧ (s.endFence f st).captures = s.captures
      ∧ (s.endFence f st).lines = s.lines ∧ (s.endFence f st).tagMap = s.tagMap
      ∧ (s.endFence f st).head = s.head ∧ (s.endFence f st).tail = s.tail :=
  ⟨rfl, rfl, rfl, rfl, rfl, rfl, rfl, rfl⟩

end Sys2Proof.Machine
end

