-- ==== Sys2Proof/Laws/Inputs.lean ====
section
/-! SUPPORT. What the sampling of an input line can do, once each. -/

namespace Sys2Proof.Machine

/-- The raw level of the present tick: the pin's when it waits to be sampled, else the one last sampled. -/
theorem State.rawNow_cases (s : State) (i : Fin 8) :
    (s.sampleDue i = true ∧ s.rawNow i = (s.input i).pin) ∨ (s.sampleDue i = false ∧ s.rawNow i = (s.input i).raw) := by
  unfold State.rawNow
  cases s.sampleDue i <;> simp

/-- A sample either changes the pin and the mark alone, or gives the filter a new raw level. -/
theorem State.sample_cases (s : State) (i : Fin 8) (pin seen : Level) :
    (seen = (s.input i).raw ∧ s.sample i pin seen =
        s.setInput i { s.input i with pin := pin, sampled := decide (s.refclk ≠ .running) })
      ∨ (seen ≠ (s.input i).raw ∧ s.sample i pin seen =
        (s.setInput i { s.input i with pin := pin, raw := seen, sampled := true }).filter i) := by
  unfold State.sample
  by_cases e : seen = (s.input i).raw <;> simp [e]

/-- A change at the pin reaches the pin alone, or the line is sampled at the level of the tick. -/
theorem State.pinChange_cases (s : State) (i : Fin 8) (v : Level) :
    ((s.resetHeld = true ∨ (s.input i).sampled = true)
        ∧ s.pinChange i v = s.setInput i { s.input i with pin := v, sampled := true })
      ∨ (s.resetHeld = false ∧ (s.input i).sampled = false
        ∧ s.pinChange i v = s.sample i v (if s.refclk = .running then v else (s.input i).pin)) := by
  unfold State.pinChange
  cases h : s.resetHeld
  · cases e : (s.input i).sampled
    · exact .inr ⟨rfl, rfl, by simp [e]⟩
    · exact .inl ⟨.inr rfl, by simp [← e]⟩
  · exact .inl ⟨.inl rfl, by simp⟩

end Sys2Proof.Machine
end

