-- ==== Sys2Proof/Laws/Rings.lean ====
section
/-! SUPPORT. The rings' account under each operation that moves it (R147 to R150, R153). -/

namespace Sys2Proof.Machine

variable (s : State) (i j : Fin 4) (c : Completion)

/-- A ring after a reservation (R148). -/
theorem State.ring_reserve :
    (s.reserve i).ring j = if i = j then { s.ring i with owed := (s.ring i).owed + 1 } else s.ring j := by
  simp only [State.reserve, State.ring_setRing]

/-- A ring after a final is staged (R149). -/
theorem State.ring_stageFinal :
    (s.stageFinal i c).ring j =
      if i = j then { s.ring i with staged := (s.ring i).staged ++ [c], owed := (s.ring i).owed - 1 }
      else s.ring j := by
  simp only [State.stageFinal, State.ring_setRing]

/-- A ring after a record without a reservation is staged (R150). -/
theorem State.ring_stageFree :
    (s.stageFree i c).ring j =
      if i = j then { s.ring i with staged := (s.ring i).staged ++ [c] } else s.ring j := by
  simp only [State.stageFree, State.ring_setRing]

/-- A reservation raises the account by one (R147). -/
theorem State.account_reserve : ((s.reserve i).ring i).account = (s.ring i).account + 1 := by
  simp only [State.ring_reserve, if_true, Ring.account]
  omega

/-- A final fills the place that was owed to it: the account stays (R147). -/
theorem State.account_stageFinal (h : 0 < (s.ring i).owed) :
    ((s.stageFinal i c).ring i).account = (s.ring i).account := by
  simp only [State.ring_stageFinal, if_true, Ring.account, List.length_append, List.length_singleton]
  omega

/-- A record without a reservation raises the account by one (R147). -/
theorem State.account_stageFree : ((s.stageFree i c).ring i).account = (s.ring i).account + 1 := by
  simp only [State.ring_stageFree, if_true, Ring.account, List.length_append, List.length_singleton]
  omega

/-- A written record lowers the account by one (R147). -/
theorem Ring.account_wrote (r : Ring) (h : r.staged ≠ []) : r.wrote.account + 1 = r.account := by
  obtain ⟨x, xs, e⟩ := List.exists_cons_of_ne_nil h
  simp only [Ring.wrote, Ring.account, e, List.tail_cons, List.length_cons]
  omega

/-- What a write and its notification leave as it was (R153, R172). -/
theorem Ring.noteWrite_frame (r : Ring) (now : Time) :
    (r.noteWrite now).staged = r.staged ∧ (r.noteWrite now).owed = r.owed
      ∧ (r.noteWrite now).state = r.state ∧ (r.noteWrite now).writeIndex = r.writeIndex
      ∧ (r.noteWrite now).hostHead = r.hostHead ∧ (r.noteWrite now).size = r.size :=
  ⟨rfl, rfl, rfl, rfl, rfl, rfl⟩

/-- All that the check of a host head can answer (R157). -/
theorem Ring.checkHead_cases (r : Ring) (v : Nat) :
    (r.size ≤ v ∧ r.checkHead v = .range)
      ∨ (v < r.size ∧ r.span r.writeIndex < r.span v ∧ r.checkHead v = .overrun)
      ∨ (v < r.size ∧ r.span v ≤ r.span r.writeIndex ∧ r.checkHead v = .accepted) := by
  unfold Ring.checkHead
  by_cases h : r.size ≤ v
  · exact .inl ⟨h, by simp only [if_pos h]⟩
  · by_cases k : r.span r.writeIndex < r.span v
    · exact .inr (.inl ⟨by omega, k, by simp only [if_neg h, if_pos k]⟩)
    · exact .inr (.inr ⟨by omega, by omega, by simp only [if_neg h, if_neg k]⟩)

end Sys2Proof.Machine
end

