-- ==== Sys2Proof/WellFormed.lean ====
section
/-! DEFINITION. Well-formed commands: the operands a command may carry that its Lean type does not
already bound. A submission record may hold anything: what is wrong in it is answered by the
machine's field check (R126), and is no matter of form. -/

namespace Sys2Proof

/-- A read of some bytes of a register names a run of them, first to last (R199). -/
def TimeRead.wellFormed : TimeRead → Bool
  | .bytes first last => decide (first ≤ last)
  | .word => true
  | .withTimeHi => true
  | .withStat => true

/-- The host enables one to four vectors: the part asks for four (R180). -/
def MsiSetup.wellFormed (m : MsiSetup) : Bool := decide (1 ≤ m.vectors ∧ m.vectors ≤ 4)

/-- The checks of form, command by command. -/
def Instr.wellFormed : Instr → Bool
  | .timeLoRead access => access.wellFormed
  | .busMasteringEnable (some m) => m.wellFormed
  | .busMasteringEnable none => true
  | .nop _ => true
  | .defineRing _ _ => true
  | .setOutput _ _ => true
  | .setInput _ _ => true
  | .startTrain _ _ => true
  | .armCapture _ _ => true
  | .cancel _ => true
  | .fence _ _ => true
  | .readTime _ => true
  | .adjustTime _ _ => true
  | .enable => true
  | .quiesce => true
  | .softReset _ => true
  | .sqtailWrite _ => true
  | .crheadWrite _ _ => true
  | .configurationRegisterWrite _ _ => true
  | .powerOnReset => true
  | .hostLinkReset => true
  | .refclkStop => true
  | .refclkResume => true
  | .vectorUnmask _ => true
  | .submissionReadReturn _ _ => true
  | .submissionReadError _ _ => true
  | .submissionReadTimeout => true
  | .inputLevelChange _ _ => true
  | .edgeConfirmed _ => true
  | .startDelivered _ => true
  | .boundaryDelivered _ => true
  | .openDelivered _ => true
  | .closeDelivered _ => true
  | .timeoutDelivered => true
  | .holdoffExpiry _ => true
  | .quiesceLimitExpiry => true
  | .postedWriteChoice => true
  | .carrierToggle _ => true
  | .busMasteringDisable => true
  | .vectorMask _ => true
  | .resetRelease => true

end Sys2Proof
end

