-- ==== Sys2Proof/Tests/Slice0.lean ====
section
/-! SUPPORT. The model's own tests: the form checks, records written out byte by byte from the spec's
layouts, single steps whose result the spec states, and for each statement with hypotheses a state and
operands that meet them. -/

namespace Sys2Proof.Tests

set_option Elab.async false

open Sys2Proof Sys2Proof.Machine

/-! Form -/

theorem test_wellFormed_refuses_bytes_out_of_order : Instr.wellFormed (.timeLoRead (.bytes 2 1)) = false := by decide

theorem test_wellFormed_takes_a_byte_run : Instr.wellFormed (.timeLoRead (.bytes 1 2)) = true := by decide

/-- A message set-up that enables `n` vectors. -/
def setup (n : Nat) : MsiSetup :=
  { enabled := true, vectors := n, address := Vector.replicate 4 0xFEE00000#64, data := Vector.replicate 4 0x41#32 }

theorem test_wellFormed_refuses_no_vectors : Instr.wellFormed (.busMasteringEnable (some (setup 0))) = false := by decide

theorem test_wellFormed_refuses_five_vectors : Instr.wellFormed (.busMasteringEnable (some (setup 5))) = false := by decide

theorem test_wellFormed_takes_four_vectors : Instr.wellFormed (.busMasteringEnable (some (setup 4))) = true := by decide

/-! Records, byte by byte from R202 and R203 -/

/-- A record of 64 bytes, those not given zero. -/
def record (bytes : List Byte) : Vector Byte 64 := Vector.ofFn fun i => bytes.getD i.val 0

/-- A header with no flags. -/
def header (tag : Tag) (ring line : BitVec 8) : Header :=
  { flags := 0, tag := tag, ring := ring, line := line, reserved := 0 }

theorem test_decode_nop : decodeSubmission (record [0x01, 0, 0x34, 0x12, 2, 0, 0, 0]) = .nop (header 0x1234 2 0) := by
  decide +kernel

theorem test_decode_defineRing :
    decodeSubmission (record [0x02, 0, 1, 0, 0, 0, 0, 0, 1, 3, 2, 0, 64, 0, 0, 0, 0x40, 0x23, 1, 0, 0, 0, 0, 0x80, 4, 0, 0, 0]) =
      .defineRing (header 1 0 0)
        { number := 1, level := 3, threshold := 2, size := 64, base := 0x8000000000012340, holdoff := 4 } := by
  decide +kernel

theorem test_decode_setOutput :
    decodeSubmission (record [0x03, 0, 1, 0, 0, 15, 0, 0, 1, 1, 2, 0, 0x10, 0x01, 0xCE, 0x02]) =
      .setOutput (header 1 0 15) { drive := 1, idle := 1, fault := 2, highWidth := 0x110, period := 0x2CE } := by
  decide +kernel

theorem test_decode_setInput :
    decodeSubmission (record [0x04, 0, 1, 0, 0, 7, 0, 0, 1, 0, 10, 0]) =
      .setInput (header 1 0 7) { enabled := 1, filterLength := 10 } := by
  decide +kernel

/-- Train 101 of the spec's sequence 11.1: OUT0, after edge 1 of capture 100, offset 250, HIGH 125. -/
def strobe : Vector Byte 64 :=
  record [0x05, 0, 101, 0, 1, 0, 0, 0, 2, 1, 0, 1, 1, 0, 100, 0, 250, 0, 0, 0, 0, 0, 0, 0, 125, 0, 0, 0x40]

theorem test_decode_startTrain :
    decodeSubmission strobe = .startTrain (header 101 1 0)
      { startKind := 2, segmentCount := 1, endPolicy := 0, edgeNumber := 1, repeatCount := 1, reference := 100
        time := 250, segments := #v[0x4000007D, 0, 0, 0, 0, 0, 0, 0] } := by
  decide +kernel

/-- Capture 100 of the spec's sequence 11.1: IN2, RISING, EACH, edge limit 1; here with both times set. -/
theorem test_decode_armCapture :
    decodeSubmission (record [0x06, 0, 100, 0, 1, 2, 0, 0, 0, 1, 0, 0, 1, 0, 0, 0, 1, 2, 3, 4, 5, 6, 0, 0, 7, 8, 9, 10, 11, 12]) =
      .armCapture (header 100 1 2)
        { edgeSelect := 0, reportMode := 1, reservedA := 0, edgeLimit := 1, reservedB := 0
          openTime := 0x060504030201, closeTime := 0x0C0B0A090807 } := by
  decide +kernel

theorem test_decode_cancel :
    decodeSubmission (record [0x07, 0x06, 200, 0, 2, 0, 0, 0]) = .cancel { header 200 2 0 with flags := 6 } := by
  decide +kernel

theorem test_decode_fence :
    decodeSubmission (record [0x08, 0, 9, 0, 1, 0, 0, 0, 0, 0, 0, 0, 0, 0, 0, 0, 0x10, 0x27, 0, 0]) =
      .fence (header 9 1 0) 10000 := by
  decide +kernel

theorem test_decode_readTime : decodeSubmission (record [0x09, 0, 9, 0, 1]) = .readTime (header 9 1 0) := by
  decide +kernel

theorem test_decode_adjustTime :
    decodeSubmission (record [0x0A, 0, 9, 0, 1, 0, 0, 0, 0, 0, 0, 0, 0, 0, 0, 0, 0, 0, 0, 0, 0, 0x80, 0, 1]) =
      .adjustTime (header 9 1 0) 0x0100800000000000 := by
  decide +kernel

/-- A cleared record is of no kind (R202). -/
theorem test_decode_zeros : decodeSubmission (record []) = .unknown 0 (header 0 0 0) := by decide +kernel

theorem test_decode_kind_0B : decodeSubmission (record [0x0B]) = .unknown 0x0B (header 0 0 0) := by decide +kernel

theorem test_tableWord : decodeTableWord 8 1 = none := rfl

/-- R203's own example: HIGH lasting 250 ticks. -/
theorem test_segment_high : segmentLevel 0x400000FA = some .high ∧ segmentDuration 0x400000FA = 250 := by decide

/-- R203's own example: CARRIER lasting 1,000 ticks. -/
theorem test_segment_carrier : segmentLevel 0x800003E8 = some .carrier ∧ segmentDuration 0x800003E8 = 1000 := by decide

/-- 10.1's own example: CR0CFG = 0x00040206. -/
theorem test_cr0cfg :
    cfgSize 0x00040206 = 64 ∧ cfgLevel 0x00040206 = 0 ∧ cfgThreshold 0x00040206 = 2 ∧ cfgHoldoff 0x00040206 = 4
      ∧ cfgReservedClear 0x00040206 = true := by decide

/-- TRAIN_END 101 of the spec's sequence 11.1, at the positions of R204, phase 1, sq_head 3. -/
theorem test_completion_bytes :
    Completion.bytes
      { kind := .trainEnd, status := .ok, late := false, lateOpen := false, cascade := false, direction := .rising
        mask := 0, tag := 101, sqHead := 3, time := 80375, time2 := 80250, count := 1, dropped := 0 } true =
      [2, 0, 1, 0, 101, 0, 3, 0, 0xF7, 0x39, 1, 0, 0, 0, 0, 0, 0x7A, 0x39, 1, 0, 0, 0, 0, 0, 1, 0, 0, 0, 0, 0, 0, 0] := by
  decide +kernel

/-! Small states -/

/-- A ring in service with 16 places and nothing staged. -/
def ring : Ring :=
  { state := .active, base := 0x10000, size := 16, writeIndex := 0, phase := true, hostHead := 0
    staged := [], owed := 0, level := 0, threshold := 1, holdoff := 0, unnotified := 0, timer := .stopped
    awaiting := false }

/-- A staged record. -/
def staged : Completion :=
  { kind := .cmdDone, status := .ok, late := false, lateOpen := false, cascade := false, direction := .rising
    mask := 0, tag := 1, sqHead := 0, time := 900, time2 := 900, count := 0, dropped := 0 }

/-- RUNNING at tick 1,000 with the read of the ring's last record outstanding; CR0 and CR1 in service, CR3
FAULTED. -/
def ready : State :=
  { State.reset with
    deviceTime := 1000, timeRestart := false, device := .running, sqSize := 16, head := 15, tail := 3
    busMastering := true, fetch := .reading (SubmissionRead.mk 15 960 0)
    rings := #v[ring, ring, Ring.undefined, { ring with state := .faulted }] }

/-- A train RUNNING the first of two segments on OUT3. -/
def train : Train :=
  { state := .running, tag := 5, line := 3, ring := 1, segments := [⟨.carrier, 4⟩, ⟨.low, 250⟩]
    repeatCount := 2, repsDone := 0, index := 0, start := .atTime, endPolicy := .idle, lateOk := false
    late := false, startTime := some 900, stopKind := .none }

/-- An OPEN capture on IN2. -/
def capture : Capture :=
  { state := .opened, tag := 6, line := 2, ring := 1, edgeSelect := .both, reportMode := .each, openTime := 0
    effectiveOpen := 800, closeTime := 0, edgeLimit := 4, taken := 0, dropped := 0, firstStamp := none
    lateOpen := false }

/-- OUT3 under that train. -/
def line : Line :=
  { drive := .pushPull, idle := .low, faultLevel := .low, highWidth := 3, period := 10, present := .carrier
    owner := some 0, successor := none, modulator := some ⟨0, true⟩ }

/-- `ready` with that train and that capture live. -/
def busy : State :=
  { ready with
    trains := ready.trains.set 0 (some train)
    captures := ready.captures.set 0 (some capture)
    lines := ready.lines.set 3 line
    inputs := ready.inputs.set 2 { InputLine.reset with enabled := true, filterLength := 10 }
    rings := ready.rings.set 1 { ring with owed := 2 }
    admission := [.train 0, .capture 0]
    tagMap := [(5, .train 0), (6, .capture 0)]
    calendar := [⟨1004, .train 0, .boundary⟩] }

/-- `busy` with the train in another condition and the calendar's head due now. -/
def busyAt (t : Train) (a : Sys2Proof.Machine.Action) : State :=
  { busy.setTrain 0 (some t) with calendar := [⟨1000, .train 0, a⟩] }

/-- A free output line in use by no train. -/
def freeLine : Line := { Line.reset with drive := .pushPull, idle := .low, faultLevel := .low }

/-- The state that a step leads to. -/
def stateOf (r : Host.Outcome State Fault Refusal) : State :=
  match r with
  | .next s => s
  | .fault _ => State.reset
  | .refused _ => State.reset

/-- `ready` with a free line and a work or two, where a START_TRAIN can be admitted. -/
def open4 : State := busy.setLine 4 freeLine

/-- A START_TRAIN body: one segment, HIGH for 4 ticks. -/
def body (kind : BitVec 8) (time : BitVec 64) (reference : Tag) (edge : BitVec 8) : StartTrainBody :=
  { startKind := kind, segmentCount := 1, endPolicy := 0, edgeNumber := edge, repeatCount := 1
    reference := reference, time := time, segments := #v[0x40000004, 0, 0, 0, 0, 0, 0, 0] }

/-- An ARM_CAPTURE body. -/
def window (opens closes : BitVec 64) : ArmCaptureBody :=
  { edgeSelect := 2, reportMode := 0, reservedA := 0, edgeLimit := 0, reservedB := 0, openTime := opens
    closeTime := closes }

/-- A DEFINE_RING body. -/
def ringBody (number : BitVec 8) (size : BitVec 32) : DefineRingBody :=
  { number := number, level := 3, threshold := 64, size := size, base := 0x20000, holdoff := 65535 }

/-- A train that waits on the end of `train`. -/
def waiter : Train :=
  { train with state := .waiting, tag := 8, start := .afterEnd 5 0, startTime := none, segments := [⟨.high, 4⟩] }

/-! Single steps -/

/-- From reset: the first tick reads 0 and the second 1 (R3). -/
theorem test_first_tick_reads_zero :
    (stateOf (step State.reset)).deviceTime = 0 ∧ (stateOf (step (stateOf (step State.reset)))).deviceTime = 1 := by
  decide +kernel

/-- An accepted NOP is answered OK on its ring, with head past it (R129, R132). -/
theorem test_nop :
    ((stateOf (exec (.nop (header 7 1 0)) ready)).ring 1).staged =
      [{ staged with tag := 7, sqHead := 0, time := 1000, time2 := 1000, mask := 8 }] := by decide +kernel

/-- A record area of zeros is refused BAD_KIND (R202). -/
theorem test_zero_record :
    ((stateOf (exec (.submissionReadReturn .outstanding (record [])) ready)).ring 0).staged.map (·.status) =
      [.badKind] := by decide +kernel

/-- A START_TRAIN at now + 39 without late-ok is refused (R6, R47). -/
theorem test_startTrain_past :
    ((stateOf (exec (.startTrain (header 9 1 4) (body 0 1039 0 0)) open4)).ring 1).staged.map (·.status) =
      [.startPast] := by decide +kernel

/-- NOW starts 40 ticks ahead (R47). -/
theorem test_startTrain_now :
    (stateOf (exec (.startTrain (header 9 1 4) (body 1 0 0 0)) open4)).calendar =
      [⟨1004, .train 0, .boundary⟩, ⟨1040, .train 1, .start⟩] := by decide +kernel

/-- A CANCEL IMMEDIATE stages TRAIN_END before its own answer (R63, R66). -/
theorem test_cancel :
    ((stateOf (exec (.cancel (header 5 1 0)) busy)).ring 1).staged.map (fun c => (c.kind, c.status)) =
      [(.trainEnd, .cancelled), (.cmdDone, .ok)] := by decide +kernel

/-- The carrier's boundary stops the modulator when the next segment is LOW (R31). -/
theorem test_boundary :
    ((stateOf (exec (.boundaryDelivered 0) (busyAt train .boundary))).line 3).present = .low
      ∧ ((stateOf (exec (.boundaryDelivered 0) (busyAt train .boundary))).line 3).modulator = none := by
  decide +kernel

/-- A host head past the write index faults CR1 and halts the device for CR0 (R157, R159, R161). -/
theorem test_crhead :
    ((stateOf (exec (.crheadWrite 1 1) ready)).ring 1).state = .faulted
      ∧ (stateOf (exec (.crheadWrite 0 1) ready)).device = .halted := by decide +kernel

/-- A tail at the size halts the device (R118). -/
theorem test_sqtail : (stateOf (exec (.sqtailWrite 16) ready)).lastCause = .sqTailRange := by decide +kernel

/-- STAT in RUNNING (R199). -/
theorem test_stat : ready.readRegister 0x08 = 1#32 := by decide +kernel

/-- CRHEAD3 of the FAULTED ring (R201). -/
theorem test_crhead_read : ready.readRegister 0x4C = 0x80000000#32 := by decide +kernel

/-! Witnesses: states and operands that meet the hypotheses of each statement -/

/-- What a start condition asks of the trains, in a form that can be evaluated: the end of a live and older
train. -/
def chainHolds (s : State) (j : Fin 32) : StartCondition → Bool
  | .afterEnd g _ => decide (∃ i, ∃ t ∈ s.train i, t.tag = g ∧ s.rank (.train i) < s.rank (.train j))
  | _ => true

/-- The chains of a state are sound when every WAITING train's condition holds so. -/
theorem chainsSound_of {s : State}
    (h : ∀ j, ∀ u ∈ s.train j, u.state = .waiting → chainHolds s j u.start = true) : s.ChainsSound := by
  intro j u hu hw g o e
  have c := h j u hu hw
  rw [e] at c
  exact of_decide_eq_true c

theorem witness_busy_is_sound :
    busy.LinesSound ∧ busy.RingsSound ∧ busy.UnitSound ∧ busy.WorksSound ∧ busy.TagsSound
      ∧ busy.AccountsSound ∧ busy.EntriesSound ∧ busy.CalendarSound := by
  refine ⟨?_, ?_, ?_, ?_, ?_, ?_, ?_, ?_⟩ <;> decide +kernel

/-- `busy` with a train waiting on the end of its train. -/
def chained : State :=
  { busy.setTrain 1 (some waiter) with
    admission := [.train 0, .capture 0, .train 1]
    tagMap := busy.tagMap ++ [(8, .train 1)]
    rings := busy.rings.set 1 { ring with owed := 3 }
    lines := busy.lines.set 3 { line with successor := some 1 } }

/-- `busy` with a fence over its two works. -/
def fenced (n : Nat) : State :=
  { busy with
    fetch := .fenced { count := n, ring := 1, acceptedAt := 900, tag := 9 }
    admission := busy.admission ++ [.fence]
    rings := busy.rings.set 1 { ring with owed := 3 }
    calendar := [⟨1000, .fence, .timeout⟩] }

theorem witness_chained_is_sound :
    (chained.LinesSound ∧ chained.RingsSound ∧ chained.UnitSound ∧ chained.WorksSound ∧ chained.TagsSound
      ∧ chained.AccountsSound ∧ chained.EntriesSound ∧ chained.CalendarSound) ∧ chained.ChainsSound :=
  ⟨by refine ⟨?_, ?_, ?_, ?_, ?_, ?_, ?_, ?_⟩ <;> decide +kernel, chainsSound_of (by decide +kernel)⟩

/-- `busy` with a command waiting. -/
def busyStop : State := { busy with pending := [.refclkStop] }

theorem witness_busyStop_steps : step busyStop = .next { busy with refclk := .stopped } := rfl

theorem witness_ModulatorsRunExactlyAtCarrier : busyStop.LinesSound ∧ ∃ t, step busyStop = .next t :=
  ⟨by decide +kernel, _, rfl⟩

theorem witness_RingsAndReadsStaySound : busyStop.RingsSound ∧ busyStop.UnitSound ∧ ∃ t, step busyStop = .next t :=
  ⟨by decide +kernel, by decide +kernel, _, rfl⟩

theorem witness_EveryWorkKeepsItsPlace :
    (busyStop.RingsSound ∧ busyStop.WorksSound ∧ busyStop.TagsSound ∧ busyStop.AccountsSound
      ∧ busyStop.EntriesSound) ∧ busyStop.ChainsSound ∧ ∃ t, step busyStop = .next t :=
  ⟨by refine ⟨?_, ?_, ?_, ?_, ?_⟩ <;> decide +kernel, chainsSound_of (by decide +kernel), _, rfl⟩

theorem witness_NoCalendarEntryIsOverdue :
    (busyStop.WorksSound ∧ busyStop.CalendarSound) ∧ ∃ t, step busyStop = .next t := ⟨by decide +kernel, _, rfl⟩

theorem witness_StepTakesTheFrontCommand : busyStop.pending = .refclkStop :: [] := rfl

theorem witness_EmptyQueueTakesWhatIsDueOrTicks :
    (State.reset.pending = [] ∧ State.reset.dueEvents = [] ∧ State.reset.resetHeld = false
      ∧ State.reset.refclk ≠ .stopped)
    ∧ (let s := { busy with refclk := .stopped };
      s.pending = [] ∧ s.dueEvents = [] ∧ s.resetHeld = false ∧ s.refclk = .stopped)
    ∧ ((busyAt train .boundary).pending = [] ∧ (busyAt train .boundary).dueEvents = [.own (.boundaryDelivered 0)])
    ∧ (let s := { ready with fetch := .reading (SubmissionRead.mk 15 960 6250000), heldEvents := [.writeReady] };
      s.pending = [] ∧ s.dueEvents = [.host .writeReady, .own .submissionReadTimeout]) := by decide +kernel

theorem witness_RecordBytesDecodeToTheirRecord :
    (∀ k h, Submission.nop (header 7 1 0) = .unknown k h → k.toNat = 0 ∨ 10 < k.toNat)
    ∧ ∀ k h, Submission.unknown 11 (header 7 1 0) = .unknown k h → k.toNat = 0 ∨ 10 < k.toNat :=
  ⟨fun _ _ e => (by cases e), fun _ _ e => (by cases e; decide)⟩

theorem witness_CompletionRecordLayout : (staged.bytes true)[2]? = some 1#8 := by decide +kernel

theorem witness_NopAndReadTimeAreAnsweredOk :
    ready.Fetching ∧ ready.Grants (header 7 1 0) 1 ∧ (header 7 1 0).flags = 0 ∧ (header 7 1 0).reserved = 0 := by
  decide +kernel

theorem witness_AdjustTimeMovesTheTimebase :
    ready.Fetching ∧ ready.Grants (header 7 1 0) 1 ∧ (header 7 1 0).flags = 0 ∧ (header 7 1 0).reserved = 0
      ∧ (0xFFFFFFFFFFFF#64).toNat < 2 ^ 48 ∧ (∀ k, ready.train k = none) ∧ ∀ k, ready.capture k = none := by
  decide +kernel

theorem witness_SetOutputReplacesTheLine :
    ready.Fetching ∧ ready.Grants (header 7 1 15) 1 ∧ (header 7 1 15).flags = 0 ∧ (header 7 1 15).reserved = 0
      ∧ (header 7 1 15).line.toNat = (15 : Fin 16).val ∧ driveOfCode 2 = some .openDrain
      ∧ levelOfCode 1 = some .high ∧ faultOfCode 3 = some .off
      ∧ (0 < (1 : BitVec 16).toNat ∧ (1 : BitVec 16).toNat < (2 : BitVec 16).toNat)
      ∧ (ready.line 15).owner = none := by decide +kernel

theorem witness_SetInputRestartsTheFilter :
    busy.Fetching ∧ busy.Grants (header 7 1 7) 1 ∧ (header 7 1 7).flags = 0 ∧ (header 7 1 7).reserved = 0
      ∧ (header 7 1 7).line.toNat = (7 : Fin 8).val ∧ enabledOfCode 1 = some true ∧ enabledOfCode 0 = some false
      ∧ (255 : BitVec 16).toNat ≤ 255 ∧ ∀ k, ∀ c ∈ busy.capture k, c.line ≠ 7 := by decide +kernel

/-- The shared hypotheses of the DEFINE_RING statements, and the field ranges at their bounds. -/
theorem witness_DefineRingPutsARingInService :
    (ready.Fetching ∧ ready.Grants (header 7 1 0) 1 ∧ (header 7 1 0).flags = 0 ∧ (header 7 1 0).reserved = 0)
    ∧ ((ringBody 3 4096).number.toNat = (3 : Fin 4).val ∧ (3 : Fin 4) ≠ 0 ∧ (ready.ring 3).state ≠ .active)
    ∧ ((ringBody 1 16).number.toNat = (1 : Fin 4).val ∧ (1 : Fin 4) ≠ 0
      ∧ (ready.ring 1).staged = [] ∧ (ready.ring 1).owed = 0)
    ∧ ((ringBody 2 0).number.toNat = (2 : Fin 4).val ∧ (ringBody 2 0).size = 0 ∧ (1 : Fin 4) ≠ 2
      ∧ (ready.ring 2).state = .undefined)
    ∧ ((ringBody 3 4096).size.toNat ∈ [16, 32, 64, 128, 256, 512, 1024, 2048, 4096]
      ∧ (ringBody 1 16).size.toNat ∈ [16, 32, 64, 128, 256, 512, 1024, 2048, 4096]
      ∧ (ringBody 3 4096).base.toNat % 64 = 0 ∧ (ringBody 3 4096).level.toNat ≤ 3
      ∧ 1 ≤ (ringBody 3 4096).threshold.toNat ∧ (ringBody 3 4096).threshold.toNat ≤ 64
      ∧ (ringBody 3 4096).holdoff.toNat ≤ 65535) := by decide +kernel

/-- The FAULTED ring with a record it keeps. -/
def faultedKeeps : State := ready.setRing 3 { ring with state := .faulted, staged := [staged] }

theorem witness_DefineRingOfABusyRingIsRefused :
    (busy.Fetching ∧ busy.Grants (header 7 1 0) 1 ∧ (ringBody 1 16).number.toNat = (1 : Fin 4).val
      ∧ (busy.ring 1).state = .active ∧ (busy.ring 1).owed ≠ 0)
    ∧ (ready.Fetching ∧ ready.Grants (header 7 1 0) 1 ∧ (ringBody 1 0).size = 0 ∧ (ready.ring 1).state = .active)
    ∧ (faultedKeeps.Fetching ∧ faultedKeeps.Grants (header 7 1 0) 1 ∧ (ringBody 3 0).size = 0
      ∧ (faultedKeeps.ring 3).state = .faulted ∧ (faultedKeeps.ring 3).staged ≠ []) := by decide +kernel

/-- The one segment word of `body` passes its checks. -/
theorem body_words (kind edge : BitVec 8) (time : BitVec 64) (reference : Tag) :
    ∀ w ∈ segmentWords (body kind time reference edge),
      ((segmentLevel w).isSome = true ∧ 4 ≤ segmentDuration w) ∧ segmentLevel w ≠ some .carrier := by
  have e : segmentWords (body kind time reference edge) = [0x40000004] := rfl
  rw [e]
  intro w hw
  rw [List.mem_singleton.mp hw]
  decide

/-- The other conditions of `StartTrainReady` give it for a START_TRAIN with `body`. -/
theorem body_ready (s : State) (h : Header) (kind edge : BitVec 8) (time : BitVec 64) (reference : Tag)
    (l : Fin 16) (k : Fin 32)
    (c : (h.flags = 0 ∨ h.flags = 1) ∧ h.reserved = 0 ∧ h.tag ≠ 0 ∧ h.line.toNat = l.val
      ∧ (∀ e ∈ s.tagMap, e.1 ≠ h.tag) ∧ s.freeTrain = some k ∧ (s.line l).drive ≠ .off) :
    StartTrainReady s h (body kind time reference edge) l .idle k :=
  ⟨c.1, c.2.1, c.2.2.1, c.2.2.2.1, (by decide : 1 ≤ (1 : BitVec 8).toNat), (by decide : (1 : BitVec 8).toNat ≤ 8),
    fun w hw => (body_words kind edge time reference w hw).1,
    .inl fun w hw => (body_words kind edge time reference w hw).2, rfl, c.2.2.2.2.1, c.2.2.2.2.2.1, c.2.2.2.2.2.2⟩

/-- The nearest and the farthest start time that keeps the lead, and the nearest and the farthest that does
not. -/
theorem witness_StartTrainIsArmed :
    (open4.Fetching ∧ open4.Grants (header 9 1 4) 1 ∧ (open4.line 4).owner = none)
    ∧ (StartTrainReady open4 (header 9 1 4) (body 0 1040 0 0) 4 .idle 1
      ∧ StartTrainReady open4 { header 9 1 4 with flags := 1 } (body 0 1039 0 0) 4 .idle 1
      ∧ StartTrainReady open4 (header 9 1 4) (body 1 0 0 0) 4 .idle 1)
    ∧ (40 ≤ (BitVec.setWidth 48 (1040 : BitVec 64) - open4.deviceTime).toNat
      ∧ (BitVec.setWidth 48 (0x8000000003E7 : BitVec 64) - open4.deviceTime).toNat < 2 ^ 47
      ∧ (BitVec.setWidth 48 (1039 : BitVec 64) - open4.deviceTime).toNat < 40
      ∧ 2 ^ 47 ≤ (BitVec.setWidth 48 (0x8000000003E8 : BitVec 64) - open4.deviceTime).toNat) := by
  refine ⟨by decide +kernel, ⟨?_, ?_, ?_⟩, by decide +kernel⟩ <;> exact body_ready _ _ _ _ _ _ _ _ (by decide +kernel)

/-- Waiting on the end of a train, on a free line with offset 0 and as successor with the longest offset;
waiting on the last edge a capture can take, with the least offset. -/
theorem witness_StartTrainWaits :
    (open4.Fetching ∧ open4.Grants (header 9 1 4) 1 ∧ open4.Grants (header 9 1 3) 1)
    ∧ (StartTrainReady open4 (header 9 1 4) (body 3 0 5 0) 4 .idle 1
      ∧ StartTrainReady open4 (header 9 1 3) (body 3 0xFFFFFFFF 5 0) 3 .idle 1
      ∧ StartTrainReady open4 (header 9 1 4) (body 2 40 6 4) 4 .idle 1)
    ∧ (open4.lookup (body 3 0 5 0).reference = some (.train 0) ∧ (open4.line 4).owner = none
      ∧ (open4.line 3).owner = some 0 ∧ (open4.line 3).successor = none ∧ open4.train 0 = some train
      ∧ train.tag = (body 3 0xFFFFFFFF 5 0).reference ∧ (body 3 0xFFFFFFFF 5 0).time.toNat < 2 ^ 32)
    ∧ (open4.lookup (body 2 40 6 4).reference = some (.capture 0) ∧ open4.capture 0 = some capture
      ∧ 40 ≤ (body 2 40 6 4).time.toNat ∧ (body 2 40 6 4).edgeNumber ≠ 0
      ∧ (body 2 40 6 4).edgeNumber.toNat ≤ capture.edgeLimit
      ∧ capture.taken < (body 2 40 6 4).edgeNumber.toNat) := by
  refine ⟨by decide +kernel, ⟨?_, ?_, ?_⟩, by decide +kernel, by decide +kernel⟩ <;>
    exact body_ready _ _ _ _ _ _ _ _ (by decide +kernel)

theorem witness_ArmCaptureOpensNowOrLater :
    (busy.Fetching ∧ busy.Grants (header 9 1 2) 1 ∧ (header 9 1 2).line.toNat = (2 : Fin 8).val
      ∧ selectOfCode (window 0 0).edgeSelect = some .both ∧ modeOfCode (window 0 0).reportMode = some .each
      ∧ (∀ x ∈ busy.tagMap, x.1 ≠ (header 9 1 2).tag) ∧ busy.freeCapture = some 1
      ∧ (busy.input 2).enabled = true)
    ∧ (isFuture busy.deviceTime 1001 = true ∧ isFuture 1001 1002 = true)
    ∧ (isFuture busy.deviceTime 1000 = false ∧ isFuture busy.deviceTime 1001 = true) := by decide +kernel

theorem witness_CancelAtPeriodEndOnlyStops :
    (busy.Fetching ∧ busy.Grants { header 5 1 0 with flags := 6 } 1 ∧ busy.lookup 5 = some (.train 0)
      ∧ busy.train 0 = some train ∧ train.state = .running)
    ∧ (let s := busy.setTrain 0 (some { train with state := .stopping });
      s.Fetching ∧ s.Grants { header 5 1 0 with flags := 4 } 1 ∧ s.lookup 5 = some (.train 0)
        ∧ s.train 0 = some { train with state := .stopping }) := by decide +kernel

theorem witness_CancelImmediateEndsTheTrain :
    (busy.Fetching ∧ busy.Grants { header 5 1 0 with flags := 2 } 1 ∧ busy.lookup 5 = some (.train 0)
      ∧ busy.train 0 = some train ∧ OffsetsInRange busy ∧ ∀ j, ∀ u ∈ busy.train j, u.start.onEnd train.tag = false)
    ∧ (let s := { busy.setTrain 0 (some { train with state := .armed }) with calendar := [⟨1004, .train 0, .start⟩] };
      s.Fetching ∧ s.Grants { header 5 1 0 with flags := 4 } 1 ∧ s.lookup 5 = some (.train 0) ∧ OffsetsInRange s)
    ∧ (chained.Fetching ∧ chained.Grants (header 5 1 0) 1 ∧ chained.lookup 5 = some (.train 0)
      ∧ chained.train 0 = some train ∧ OffsetsInRange chained
      ∧ ¬(train.state = .stopping ∧ train.stopKind = .cascade)) := by decide +kernel

/-- `busy` with a train waiting on the first edge of its capture, on OUT4. -/
def triggered : State :=
  { busy.setTrain 1 (some { waiter with line := 4, start := .afterEdge 6 1 40 }) with
    admission := [.train 0, .capture 0, .train 1]
    tagMap := busy.tagMap ++ [(8, .train 1)]
    rings := busy.rings.set 1 { ring with owed := 3 }
    lines := busy.lines.set 4 { freeLine with owner := some 1 } }

theorem witness_CancelEndsTheCapture :
    (busy.Fetching ∧ busy.Grants { header 6 1 0 with flags := 4 } 1 ∧ busy.lookup 6 = some (.capture 0)
      ∧ busy.capture 0 = some capture ∧ OffsetsInRange busy)
    ∧ (triggered.Fetching ∧ triggered.Grants (header 6 1 0) 1 ∧ triggered.lookup 6 = some (.capture 0)
      ∧ triggered.capture 0 = some capture ∧ OffsetsInRange triggered
      ∧ oldestWaiting triggered (StartCondition.onCapture capture.tag) = [1]) := by decide +kernel

theorem witness_CascadeEndsEveryWaiter :
    (chained.WorksSound ∧ chained.TagsSound ∧ chained.train 0 = some train ∧ chained.Fetching
      ∧ chained.Grants { header 5 1 0 with flags := 2 } 1 ∧ chained.lookup 5 = some (.train 0))
    ∧ (chained.Grants { header 8 1 0 with flags := 6 } 1 ∧ chained.lookup 8 = some (.train 1)
      ∧ chained.train 1 = some waiter ∧ waiter.state = .waiting)
    ∧ (let t := { train with index := 1, state := .stopping, stopKind := .cascade }
      let s := { chained.setTrain 0 (some t) with calendar := [⟨1000, .train 0, .boundary⟩] }
      s.WorksSound ∧ s.TagsSound ∧ s.train 0 = some t ∧ s.Fetching ∧ s.Grants (header 5 1 0) 1
        ∧ s.lookup 5 = some (.train 0) ∧ s.calendar = [{ due := s.deviceTime, owner := .train 0, action := .boundary }]
        ∧ t.segments.length ≤ t.index + 1 ∧ s.fetch.waiting = none) := by
  refine ⟨⟨?_, ?_, ?_, ?_, ?_, ?_⟩, ?_, ?_⟩ <;> decide +kernel

/-- A train STOPPING in cascade at its last boundary, with one that waits on it and a fence that counts the two. -/
def fencedCascade : State :=
  { chained.setTrain 0 (some { train with index := 1, state := .stopping, stopKind := .cascade }) with
    fetch := .fenced { count := 2, ring := 1, acceptedAt := 900, tag := 9 }
    captures := ready.captures
    admission := [.train 0, .train 1, .fence]
    tagMap := [(5, .train 0), (8, .train 1)]
    calendar := [⟨1000, .train 0, .boundary⟩, ⟨1009, .fence, .timeout⟩] }

theorem witness_CascadeEndsEveryWaiter_fence :
    (fencedCascade.WorksSound ∧ fencedCascade.TagsSound
      ∧ DueNow fencedCascade (.train 0) .boundary [⟨1009, .fence, .timeout⟩])
    ∧ fencedCascade.ChainsSound :=
  ⟨by refine ⟨?_, ?_, ?_⟩ <;> decide +kernel, chainsSound_of (by decide +kernel)⟩

/-- The two ends of that cascade end the fence, and the next read is issued (R111, R138). -/
theorem test_cascade_ends_the_fence :
    ((stateOf (exec (.boundaryDelivered 0) fencedCascade)).ring 1).staged.map (fun c => (c.kind, c.status, c.cascade)) =
        [(.trainEnd, .cancelled, true), (.trainEnd, .stopped, false), (.fenceEnd, .ok, false)]
      ∧ (stateOf (exec (.boundaryDelivered 0) fencedCascade)).fetch.outstanding.isSome = true := by decide +kernel

/-- The third of those states is chained too, and the waiting train is below the train that ends. -/
theorem witness_CascadeEndsEveryWaiter_chains :
    (let t := { train with index := 1, state := .stopping, stopKind := .cascade };
      State.ChainsSound { chained.setTrain 0 (some t) with calendar := [⟨1000, .train 0, .boundary⟩] })
    ∧ chained.Below 5 1 :=
  ⟨chainsSound_of (by decide +kernel), .waits (by rfl : chained.train 1 = some waiter) rfl (by decide)⟩

theorem witness_FenceEndsOrHoldsTheStream :
    (ready.Fetching ∧ ready.Grants (header 9 1 0) 1 ∧ ready.tagMap = [] ∧ (1 : BitVec 64).toNat ≠ 0)
    ∧ (busy.Fetching ∧ busy.Grants (header 9 1 0) 1 ∧ busy.tagMap ≠ []
      ∧ (0xFFFFFFFF : BitVec 64).toNat < 2 ^ 32) := by decide +kernel

theorem witness_RefusedRecordIsOnlyAnswered :
    ready.Fetching ∧ ready.target (decodeSubmission (record [])).header = 0
      ∧ (ready.ring 0).account < Config.accountPlaces
      ∧ (ready.consumed.reserve 0).check 0 (decodeSubmission (record [])) = some .badKind := by decide +kernel

/-- `ready` with every place of CR1 taken. -/
def full : State := ready.setRing 1 { ring with staged := List.replicate 64 staged }

theorem witness_RecordWithoutAPlaceStalls :
    full.Fetching ∧ Config.accountPlaces ≤ (full.ring (full.target (decodeSubmission strobe).header)).account := by
  decide +kernel

theorem witness_AcceptedRecordNamesItsRing : ready.check 1 (.nop (header 7 1 0)) = none := by decide +kernel

/-! The host link -/

/-- OFF, with a valid configuration in the registers. -/
def ready2 : State := { State.reset with sqSize := 16, sqBaseLo := 0x1000, cr0BaseLo := 0x1400, cr0Cfg := 0x00040104 }

theorem witness_EnableTestsTheConfiguration :
    (ready2.Listening ∧ ready2.device = .off ∧ ValidConfiguration ready2)
    ∧ (State.reset.Listening ∧ State.reset.device = .off ∧ ¬ValidConfiguration State.reset)
    ∧ (ready.Listening ∧ ready.device ≠ .off) := by decide +kernel

/-- That fence and that train with the entries they hold. -/
def fencedWorks : State :=
  { fenced 2 with calendar := [⟨1004, .train 0, .boundary⟩, ⟨1009, .fence, .timeout⟩] }

theorem witness_QuiesceEndsEveryWork :
    (chained.Listening ∧ chained.device = .running ∧ chained.RingsSound ∧ chained.WorksSound ∧ chained.TagsSound
      ∧ chained.AccountsSound ∧ chained.EntriesSound ∧ chained.LinesSound)
    ∧ (fencedWorks.Listening ∧ fencedWorks.RingsSound ∧ fencedWorks.WorksSound ∧ fencedWorks.TagsSound
      ∧ fencedWorks.AccountsSound ∧ fencedWorks.EntriesSound ∧ fencedWorks.LinesSound)
    ∧ ((∃ m, sweptRecords chained m ≠ []) ∧ ∀ m, sweptRecords ready m = []) := by
  refine ⟨⟨?_, ?_, ?_, ?_, ?_, ?_, ?_, ?_⟩, ⟨?_, ?_, ?_, ?_, ?_, ?_, ?_⟩, ?_⟩ <;> decide +kernel

/-- The sweep of a train and a fence that hold entries, and a capture that holds none: the train's final first,
then the fence's with the one work left that it counts, then the capture's (R18, R71, R95, R141). -/
theorem test_sweep :
    ((stateOf (exec .quiesce fencedWorks)).ring 1).staged.map
      (fun c => (c.kind, c.status, c.count)) =
      [(.trainEnd, .aborted, 0), (.fenceEnd, .aborted, 1), (.captureEnd, .aborted, 0)] := by decide +kernel

theorem witness_QuiesceOfAnIdlePartIsComplete :
    (ready.Listening ∧ ready.device = .running ∧ ready.calendar = [] ∧ ready.admission = []
      ∧ (∀ i, (ready.ring i).staged = []) ∧ ready.fetch.waiting = none ∧ ready.holdsRecord = false)
    ∧ (ready2.Listening ∧ ready2.device ≠ .running) := by decide +kernel

theorem witness_SoftResetRestoresResetValues : busy.Listening := by decide +kernel

theorem witness_HardResetsHoldThePart :
    (stateOf (exec .powerOnReset busy)).resetHeld = true ∧ busy.resetHeld = false := by decide +kernel

theorem witness_SqTailWriteByDeviceState :
    (ready.Listening ∧ ready.device = .running ∧ (15 : Word).toNat < ready.sqSize.toNat
      ∧ ready.sqSize.toNat ≤ (16 : Word).toNat)
    ∧ (let s := { ready with device := .quiescing, fetch := .idle };
      s.Listening ∧ s.device = .quiescing ∧ (15 : Word).toNat < s.sqSize.toNat)
    ∧ (ready2.Listening ∧ ready2.device = .off) := by decide +kernel

/-- `ready` with eight records written to CR0 and CR1 and none consumed. -/
def written : State :=
  (ready.setRing 0 { ring with writeIndex := 8 }).setRing 1 { ring with writeIndex := 8, unnotified := 8 }

/-- `s` with a NOP for ring `r` held STALLED, returned at tick 990. -/
def stalledOn (s : State) (r : BitVec 8) : State := { s with fetch := .stalled (.nop (header 7 r 0)) 990 }

theorem witness_CrHeadWriteIsChecked :
    (written.Listening ∧ written.device = .running ∧ (written.ring 0).state = .active
      ∧ (written.ring 1).state = .active ∧ written.holdsRecord = false)
    ∧ ((8 : Word).toNat < 16 ∧ (8 + 16 - 0) % 16 ≤ (8 + 16 - 0) % 16)
    ∧ (16 ≤ (16 : Word).toNat)
    ∧ ((9 : Word).toNat < 16 ∧ (8 + 16 - 0) % 16 < (9 + 16 - 0) % 16)
    ∧ (written.ring 2).state ≠ .active
    ∧ (let s := stalledOn written 1;
      s.Listening ∧ s.device = .running ∧ ringNumber (header 7 1 0).ring = some 1
        ∧ s.fetch = .stalled (.nop (header 7 1 0)) 990 ∧ (s.ring 0).account < 64
        ∧ ({ s with device := .quiescing } : State).Listening)
    ∧ (let s := (stalledOn written 1).setRing 0 { ring with staged := List.replicate 64 staged };
      s.Listening ∧ s.fetch = .stalled (.nop (header 7 1 0)) 990 ∧ 64 ≤ (s.ring 0).account) := by decide +kernel

theorem witness_ConfigurationRegistersTakeWritesInOff :
    ((ready2.Listening ∧ ready2.device = .off)
      ∧ (ready.Listening ∧ ready.device ≠ .off ∧ 0x30 ∈ ([0x18, 0x1C, 0x20, 0x28, 0x2C, 0x30] : List (BitVec 8)))
      ∧ (251 : BitVec 8).toNat + 4 < 256)
    ∧ (∃ t, exec (.configurationRegisterWrite 0x1C (.word 1)) ready2 = .next t)
    ∧ ∃ t, exec (.configurationRegisterWrite 251 (.word 1)) ready = .next t :=
  ⟨by decide +kernel, ⟨_, rfl⟩, _, rfl⟩

theorem witness_TimeLoReadTakesTheCapture : ready.resetHeld = false ∧ (0 : Fin 4) ≤ 3 := by decide +kernel

theorem witness_StatusRegistersReadTheState :
    ({ ready2 with discardedCount := 256 } : State).discardedCount < 512
      ∧ 0x14 ∉ [0x00, 0x04, 0x08, 0x0C, 0x10, 0x18, 0x1C, 0x20, 0x24, 0x28, 0x2C, 0x30, 0x40, 0x44, 0x48, 0x4C]
      ∧ (3 : Fin 4) ≤ 3 := by decide +kernel

/-- STAT's upper half, and STAT with the register at 0x0C above it, in RUNNING with one record discarded
(R199). -/
theorem test_narrow_and_wide_reads :
    ({ ready with discardedCount := 1 } : State).readWindow 0x08 (.bytes 2 3) = [1, 0]
      ∧ ready.readWindow 0x40 .pair = [0, 0, 0, 0x40, 0, 0, 0, 0x40] := by decide +kernel

/-- The clock runs again with a QUIESCE held, and the outstanding read's answer behind it. -/
def holding : State :=
  { ready with heldEvents := [.ctrl false false, .readReturn .outstanding (.nop (header 7 1 0))] }

theorem witness_HostEventsWaitForTheClock :
    (ready.refclk ≠ .stopped ∧ ready.refclk = .running ∧ ready.heldEvents = [])
    ∧ (let s := { ready with refclk := .stopped };
      s.refclk = .stopped ∧ s.resetHeld = false ∧ s.refclk ≠ .running ∧ s.fetch.outstanding.isSome = true
        ∧ s.heldEvents = [])
    ∧ (let s := { ready with refclk := .resuming, fetch := .idle, heldEvents := [.writeReady] };
      s.resetHeld = false ∧ s.refclk ≠ .running ∧ s.fetch.outstanding.isSome = false)
    ∧ (let s := holding; s.resetHeld = false ∧ s.refclk = .running ∧ s.pending = []
      ∧ s.dueEvents = [.host (.ctrl false false)] ∧ s.fetch.outstanding.isSome = true ∧ s.device = .running) := by
  decide +kernel

/-- A held answer of a read that a held QUIESCE discards does not answer the next read (R120). -/
theorem test_held_answer_of_a_discarded_read :
    (stateOf (step holding)).heldEvents = [.readReturn .discarded (.nop (header 7 1 0))]
      ∧ (stateOf (step holding)).device = .off := by decide +kernel

/-- A read due and not issued, for want of bus mastering. -/
def waitsForMaster : State := { ready with fetch := .idle, busMastering := false }

theorem witness_BusMasteringGatesReads :
    (waitsForMaster.resetHeld = false ∧ waitsForMaster.refclk = .running
      ∧ ∀ v : Fin 4, waitsForMaster.vectors[v].held = false)
    ∧ (let s := { waitsForMaster with busMastering := true };
      s.resetHeld = false ∧ s.device = .running ∧ s.fetch = .idle ∧ s.head ≠ s.tail ∧ s.busMastering = true)
    ∧ (ready.resetHeld = false ∧ ready.fetch ≠ .idle) := by decide +kernel

/-- Messages enabled, with one held for the masked vector 3. -/
def masked : State :=
  { ready with
    msiEnabled := true, vectorsEnabled := 4
    vectors := ready.vectors.set 3 { MsiVector.reset with masked := true, held := true } }

theorem witness_UnmaskingSendsTheHeldMessage :
    masked.resetHeld = false ∧ masked.vectors[(3 : Fin 4)].held = true ∧ masked.busMastering = true
      ∧ masked.vectors[(0 : Fin 4)].held = false := by decide +kernel

theorem witness_FailedReadHaltsTheDevice :
    (ready.Listening ∧ ready.device = .running ∧ ready.fetch.outstanding.isSome = true)
    ∧ (let s := { ready with fetch := .reading (SubmissionRead.mk 15 960 6250000) };
      s.fetch = .reading (SubmissionRead.mk 15 960 6250000) ∧ s.device = .running)
    ∧ (let s := { ready with fetch := .reading (SubmissionRead.mk 15 960 6249999) };
      s.fetch = .reading (SubmissionRead.mk 15 960 6249999) ∧ s.device = .running) := by decide +kernel

/-- A record staged on CR1 at its last place, its messages not awaited. -/
def atWrap : State := ready.setRing 1 { ring with staged := [staged], writeIndex := 15, hostHead := 8, level := 3 }

theorem witness_PostedWriteWritesTheOldestRecord :
    (atWrap.Listening ∧ atWrap.busMastering = true ∧ atWrap.haltMessage = false ∧ atWrap.closing = []
      ∧ atWrap.servedRing = some 1 ∧ (atWrap.ring 1).messageDue = false ∧ (atWrap.ring 1).staged = [staged]
      ∧ atWrap.device = .running ∧ atWrap.holdsRecord = false)
    ∧ (let s := { atWrap with device := .quiescing, fetch := .idle };
      s.Listening ∧ s.servedRing = some 1 ∧ s.holdsRecord = false
        ∧ ∀ j, ((writtenTo s 1 staged []).ring j).staged = [])
    ∧ (let s := { atWrap.setRing 0 { ring with staged := [staged] } with device := .quiescing, fetch := .idle };
      s.Listening ∧ s.servedRing = some 1 ∧ s.holdsRecord = false
        ∧ ∃ j, ((writtenTo s 1 staged []).ring j).staged ≠ [])
    ∧ (let c := List.replicate 63 staged
      let s := stalledOn (full.setRing 1 { ring with staged := staged :: c, level := 3 }) 1
      s.Listening ∧ s.busMastering = true ∧ s.servedRing = some 1 ∧ (s.ring 1).messageDue = false
        ∧ (s.ring 1).staged = staged :: c ∧ s.device = .running ∧ s.target (header 7 1 0) = 1
        ∧ (s.ring 1).account ≤ 64 ∧ ({ s with device := .quiescing } : State).servedRing = some 1)
    ∧ (let s := stalledOn (atWrap.setRing 0 { ring with owed := 64 }) 0
      s.servedRing = some 1 ∧ s.target (header 7 0 0) = 0 ∧ (0 : Fin 4) ≠ 1 ∧ 64 ≤ (s.ring 0).account) := by
  decide +kernel

/-- A NOP for the ring written passes every check, and one with a flag set fails the field check. -/
theorem witness_PostedWriteWritesTheOldestRecord_checks (s : State) (hs : (s.ring 1).state = .active) :
    FirstThatFails (checksOf s 1 (.nop (header 7 1 0))) none
      ∧ FirstThatFails (checksOf s 1 (.nop { header 7 1 0 with flags := 1 })) (some .badField) := by
  have active : ∀ k : Fin 4, (header 7 1 0).ring.toNat = k.val → (s.ring k).state = .active := fun k e => by
    rw [show k = 1 from Fin.ext e.symm]; exact hs
  refine ⟨.inr ⟨?_, .inr ⟨?_, .inr ⟨?_, rfl⟩⟩⟩, .inl ⟨.inr ⟨0, by decide⟩, rfl⟩⟩
  · unfold headerBad; decide
  · rintro (h | ⟨k, e, h⟩)
    · exact absurd h (by decide)
    · rw [active k e] at h; cases h
  · rintro ⟨k, e, h⟩
    rw [active k e] at h; cases h

theorem witness_PostedWriteSendsMessagesFirst :
    (ready2.Listening ∧ ready2.busMastering = false)
    ∧ (let s := { ready with haltMessage := true, device := .halted };
      s.Listening ∧ s.busMastering = true ∧ s.haltMessage = true)
    ∧ (let s := { ready with closing := [⟨0, 3⟩], device := .off };
      s.Listening ∧ s.busMastering = true ∧ s.haltMessage = false ∧ s.closing = [⟨0, 3⟩])
    ∧ (let s := ready.setRing 1 { ring with unnotified := 1 };
      s.Listening ∧ s.busMastering = true ∧ s.haltMessage = false ∧ s.closing = [] ∧ s.servedRing = some 1
        ∧ (s.ring 1).messageDue = true) := by decide +kernel

theorem witness_ArbiterServesTheHighestLevel :
    atWrap.servedRing = some 1 ∧ (atWrap.ring 1).hasCandidate = true ∧ ready.servedRing = none := by decide +kernel

/-! Events of the tick -/

theorem witness_StartDeliveredRunsTheTrain :
    let s := busyAt { train with state := .armed } .start;
    DueNow s (.train 0) .start [] ∧ s.train 0 = some { train with state := .armed }
      ∧ train.segments[0]? = some ⟨.carrier, 4⟩ := by decide +kernel

theorem witness_BoundaryMovesToTheNextSegment :
    let s := busyAt train .boundary;
    DueNow s (.train 0) .boundary [] ∧ s.train 0 = some train
      ∧ train.segments[train.index + 1]? = some ⟨.low, 250⟩ := by decide +kernel

theorem witness_LastBoundaryRepeatsOrEnds :
    (let t := { train with index := 1, repeatCount := 0, repsDone := 0xFFFFFFFF };
      let s := busyAt t .boundary;
      DueNow s (.train 0) .boundary [] ∧ s.train 0 = some t ∧ t.segments.length ≤ t.index + 1
        ∧ t.segments[0]? = some ⟨.carrier, 4⟩ ∧ t.state = .running ∧ t.repeatCount = 0)
    ∧ (let t := { train with index := 1, repsDone := 1 };
      let s := { chained.setTrain 0 (some t) with calendar := [⟨1000, .train 0, .boundary⟩] };
      DueNow s (.train 0) .boundary [] ∧ s.train 0 = some t ∧ t.repeatCount ≠ 0 ∧ t.repsDone + 1 = t.repeatCount
        ∧ OffsetsInRange s ∧ s.fetch.waiting = none ∧ s.train 1 = some waiter)
    ∧ (let t := { train with index := 1, state := .stopping, stopKind := .plain };
      let s := { chained.setTrain 0 (some t) with calendar := [⟨1000, .train 0, .boundary⟩] };
      DueNow s (.train 0) .boundary [] ∧ s.train 0 = some t ∧ t.state = .stopping ∧ t.stopKind ≠ .cascade
        ∧ OffsetsInRange s ∧ s.fetch.waiting = none)
    ∧ (let t := { train with index := 1, state := .stopping, stopKind := .cascade };
      let s := busyAt t .boundary;
      DueNow s (.train 0) .boundary [] ∧ s.train 0 = some t ∧ t.state = .stopping
        ∧ (∀ j, ∀ u ∈ s.train j, u.start.onEnd t.tag = false) ∧ OffsetsInRange s ∧ s.fetch.waiting = none)
    ∧ (let t := { train with index := 1, repsDone := 1 };
      let s := { (fenced 1).setTrain 0 (some t) with calendar := [⟨1000, .train 0, .boundary⟩, ⟨1000, .fence, .timeout⟩] };
      DueNow s (.train 0) .boundary [⟨1000, .fence, .timeout⟩] ∧ s.train 0 = some t ∧ OffsetsInRange s
        ∧ t.repeatCount ≠ 0 ∧ t.repsDone + 1 = t.repeatCount) := by decide +kernel

theorem witness_SuccessorTakesTheLineAtOnce :
    let t := { train with index := 1, repsDone := 1 };
    let s := { chained.setTrain 0 (some t) with calendar := [⟨1000, .train 0, .boundary⟩] };
    DueNow s (.train 0) .boundary [] ∧ s.train 0 = some t ∧ s.train 1 = some waiter ∧ (0 : Fin 32) ≠ 1
      ∧ t.segments.length ≤ t.index + 1 ∧ t.state = .running ∧ t.repeatCount ≠ 0
      ∧ t.repsDone + 1 = t.repeatCount ∧ waiter.state = .waiting ∧ waiter.start = .afterEnd t.tag 0
      ∧ waiter.line = t.line ∧ waiter.segments[0]? = some ⟨.high, 4⟩ ∧ (s.line t.line).owner = some 0
      ∧ (s.line t.line).successor = some 1 ∧ Owner.train 1 ∈ s.admission ∧ s.admission.Nodup
      ∧ s.fetch.waiting = none ∧ ∀ m, m ≠ 1 → ∀ w ∈ s.train m, w.start.onEnd t.tag = false := by decide +kernel

theorem witness_LineAtATrainsEnd :
    line.owner = some 0
    ∧ (let l := { line with successor := some 1 }; l.owner ≠ some 1 ∧ l.successor = some 1)
    ∧ (line.owner ≠ some 2 ∧ line.successor ≠ some 2) := by decide +kernel

theorem witness_PinFollowsDriveAndLevel :
    (busy.line 0).drive = .off ∧ busy.resetHeld = false ∧ (busy.line 3).drive ≠ .off
      ∧ (busy.line 3).present = .carrier ∧ (busy.line 3).modulator = some ⟨0, true⟩
      ∧ (open4.line 4).drive ≠ .off ∧ (open4.line 4).present = .low := by decide +kernel

theorem witness_CarrierTogglesAtItsPhases :
    (let s := busy.setLine 3 { line with modulator := some ⟨3, true⟩ };
      (s.line 3).modulator = some ⟨3, true⟩ ∧ (s.line 3).highWidth ≤ 3)
    ∧ (let s := busy.setLine 3 { line with modulator := some ⟨0, false⟩ };
      (s.line 3).modulator = some ⟨0, false⟩ ∧ 0 < (s.line 3).highWidth)
    ∧ (let s := busy.setLine 3 { line with modulator := some ⟨2, true⟩ };
      (s.line 3).modulator = some ⟨2, true⟩ ∧ true = decide (2 < (s.line 3).highWidth)) := by decide +kernel

/-- `busy` with its capture as given and an entry of it due now. -/
def captureAt (c : Capture) (a : Sys2Proof.Machine.Action) : State :=
  { busy.setCapture 0 (some c) with calendar := [⟨1000, .capture 0, a⟩] }

theorem witness_OpenDeliveredOpensTheWindow :
    (let c := { capture with state := .pending, openTime := 1000, effectiveOpen := 1000 };
      DueNow (captureAt c .openWindow) (.capture 0) .openWindow [] ∧ (captureAt c .openWindow).capture 0 = some c
        ∧ c.closeTime = 0)
    ∧ (let c := { capture with state := .pending, openTime := 1000, effectiveOpen := 1000, closeTime := 1001 };
      DueNow (captureAt c .openWindow) (.capture 0) .openWindow [] ∧ (captureAt c .openWindow).capture 0 = some c
        ∧ c.closeTime ≠ 0) := by decide +kernel

theorem witness_CloseDeliveredEndsTheWindow :
    let c := { capture with closeTime := 1000 };
    (let s := { triggered.setCapture 0 (some c) with calendar := [⟨1000, .capture 0, .closeWindow⟩] };
      DueNow s (.capture 0) .closeWindow [] ∧ s.capture 0 = some c ∧ s.fetch.waiting = none
        ∧ OffsetsInRange s ∧ oldestWaiting s (StartCondition.onCapture c.tag) = [1])
    ∧ (let s := { (fenced 2).setCapture 0 (some c) with calendar := [⟨1000, .capture 0, .closeWindow⟩] };
      DueNow s (.capture 0) .closeWindow [] ∧ s.capture 0 = some c ∧ OffsetsInRange s) := by decide +kernel

/-- That end lowers the fence's count from 2 to 1 (R138). -/
theorem test_close_is_reported :
    (stateOf (exec (.closeDelivered 0) { (fenced 2).setCapture 0 (some { capture with closeTime := 1000 }) with
      calendar := [⟨1000, .capture 0, .closeWindow⟩] })).fetch =
        .fenced { count := 1, ring := 1, acceptedAt := 900, tag := 9 } := by decide +kernel

theorem witness_FenceEndsByTimeoutOrCount :
    ((fenced 2).fetch = .fenced { count := 2, ring := 1, acceptedAt := 900, tag := 9 }
      ∧ DueNow (fenced 2) .fence .timeout [] ∧ 1 < 2)
    ∧ ((fenced 1).fetch = .fenced { count := 1, ring := 1, acceptedAt := 900, tag := 9 }
      ∧ (fenced 1).device = .running ∧ ({ fenced 1 with device := .quiescing } : State).device ≠ .running) := by
  decide +kernel

/-- The clock has stopped inside tick 1,000 with IN2, a candidate HIGH since 999 at filter length 1, gone LOW and not
yet sampled. -/
def stopsUnsampled : State :=
  { busy.setInput 2
      { enabled := true, filterLength := 1, filtered := .low, candidate := some ⟨.high, 999⟩, pin := .low
        raw := .high, sampled := false } with
    refclk := .stopped }

/-- The candidate is discarded at that tick and no edge is confirmed (R74), also when the pin goes HIGH again while
the clock stands still. -/
theorem test_stop_keeps_the_sample :
    stopsUnsampled.dueEvents = [.own (.inputLevelChange 2 .low)]
      ∧ (let s := stateOf (step stopsUnsampled);
        (s.input 2).candidate = none ∧ (s.input 2).filtered = .low ∧ s.dueEvents = [])
      ∧ (let s := stateOf (exec (.inputLevelChange 2 .high) stopsUnsampled);
        (s.input 2).candidate = none ∧ (s.input 2).filtered = .low ∧ (s.input 2).raw = .low ∧ s.dueEvents = []) := by
  decide +kernel

theorem witness_InputLevelChangeMeetsTheFilter :
    (({ busy with resetHeld := true } : State).resetHeld = true
      ∧ ((busy.setInput 2 { busy.input 2 with sampled := true }).input 2).sampled = true
      ∧ Level.low = (busy.input 2).raw)
    ∧ (stopsUnsampled.resetHeld = false ∧ stopsUnsampled.refclk = .stopped ∧ (stopsUnsampled.input 2).sampled = false
      ∧ (stopsUnsampled.input 2).pin ≠ (stopsUnsampled.input 2).raw
      ∧ (stopsUnsampled.input 2).pin = (stopsUnsampled.input 2).filtered)
    ∧ (busy.resetHeld = false ∧ busy.refclk = .running ∧ (busy.input 2).sampled = false
      ∧ Level.high ≠ (busy.input 2).raw ∧ (busy.input 0).enabled = false ∧ Level.high ≠ (busy.input 0).raw)
    ∧ ((busy.input 2).enabled = true ∧ Level.high ≠ (busy.input 2).filtered ∧ (busy.input 2).candidate = none
      ∧ (busy.input 2).filterLength ≠ 0)
    ∧ (let s := busy.setInput 2
        { busy.input 2 with raw := .high, pin := .high, candidate := some ⟨.high, 995⟩ }
      s.refclk = .running ∧ (s.input 2).sampled = false ∧ Level.low ≠ (s.input 2).raw
        ∧ (s.input 2).enabled = true ∧ Level.low = (s.input 2).filtered)
    ∧ (let s := busy.setInput 1 { InputLine.reset with enabled := true };
      (s.input 1).filterLength = 0 ∧ (s.input 1).candidate = none ∧ Level.high ≠ (s.input 1).filtered
        ∧ Level.high ≠ (s.input 1).raw ∧ OffsetsInRange s)
    ∧ (let s := busy.setInput 2 { InputLine.reset with enabled := true };
      (s.input 2).filterLength = 0 ∧ (s.input 2).candidate = none ∧ Level.high ≠ (s.input 2).filtered
        ∧ Level.high ≠ (s.input 2).raw ∧ OffsetsInRange s ∧ TakesEdge capture ⟨.high, s.deviceTime⟩) := by
  decide +kernel

/-- `busy` with the candidate of IN`i` seen HIGH for its filter length of 10. -/
def seen (i : Fin 8) (first : Time) : State :=
  busy.setInput i
    { enabled := true, filterLength := 10, filtered := .low, candidate := some ⟨.high, first⟩, pin := .high
      raw := .high, sampled := false }

theorem witness_EdgeConfirmedSetsTheFilteredLevel :
    (((seen 1 990).input 1).candidate = some ⟨.high, 990⟩ ∧ ConfirmedNow (seen 1 990) 1 ⟨.high, 990⟩
      ∧ AllPass (seen 1 990) 1 ⟨.high, 990⟩)
    ∧ (((seen 1 991).input 1).candidate = some ⟨.high, 991⟩ ∧ ¬ConfirmedNow (seen 1 991) 1 ⟨.high, 991⟩)
    ∧ (let s := (seen 2 990).setCapture 0 (some { capture with effectiveOpen := 991 });
      ConfirmedNow s 2 ⟨.high, 990⟩ ∧ AllPass s 2 ⟨.high, 990⟩)
    ∧ (let s := (seen 2 990).setCapture 0 (some { capture with edgeSelect := .falling });
      ConfirmedNow s 2 ⟨.high, 990⟩ ∧ AllPass s 2 ⟨.high, 990⟩)
    ∧ (let s := (seen 2 990).setCapture 0 (some { capture with state := .pending });
      ConfirmedNow s 2 ⟨.high, 990⟩ ∧ AllPass s 2 ⟨.high, 990⟩) := by
  refine ⟨⟨?_, ?_, ?_⟩, ⟨?_, ?_⟩, ⟨?_, ?_⟩, ⟨?_, ?_⟩, ?_, ?_⟩ <;> decide +kernel

/-- An edge on IN2 with two captures live there, that of slot 1 the older. -/
def twoCaptures : State :=
  { (seen 2 990).setCapture 1 (some { capture with tag := 7 }) with
    admission := [.train 0, .capture 1, .capture 0]
    tagMap := [(5, .train 0), (7, .capture 1), (6, .capture 0)] }

theorem witness_CapturesTakeOrPassTheEdge :
    (ConfirmedNow (seen 2 990) 2 ⟨.high, 990⟩ ∧ OffsetsInRange (seen 2 990) ∧ (seen 2 990).captureOrder = [0]
      ∧ (seen 2 990).capture 0 = some capture ∧ capture.line = 2 ∧ TakesEdge capture ⟨.high, 990⟩
      ∧ ((seen 2 990).ring capture.ring).account < 64)
    ∧ (let s := (seen 2 990).setRing 1 { ring with owed := 2, staged := List.replicate 62 staged };
      ConfirmedNow s 2 ⟨.high, 990⟩ ∧ s.capture 0 = some capture ∧ 64 ≤ (s.ring capture.ring).account)
    ∧ (let c := { capture with reportMode := .summary, edgeLimit := 1 };
      let s := (triggered.setInput 2 ((seen 2 990).input 2)).setCapture 0 (some c);
      ConfirmedNow s 2 ⟨.high, 990⟩ ∧ s.captureOrder = [0] ∧ s.capture 0 = some c
        ∧ c.taken + 1 = (if c.edgeLimit = 0 then 2 ^ 32 - 1 else c.edgeLimit)
        ∧ OffsetsInRange s ∧ oldestWaiting s (StartCondition.onEdge c.tag (c.taken + 1)) = [1])
    ∧ (ConfirmedNow twoCaptures 2 ⟨.high, 990⟩ ∧ twoCaptures.captureOrder = [1, 0] ∧ OffsetsInRange twoCaptures) := by
  decide +kernel

/-- The older capture's record of one edge is staged before the younger's (R79). -/
theorem test_edge_goes_to_the_older_first :
    ((stateOf (exec (.edgeConfirmed 2) twoCaptures)).ring 1).staged.map (·.tag) = [7, 6] := by decide +kernel

/-- The first edge fires the train that waits on it: ARMED for the edge's timestamp plus 40 (R101). -/
theorem test_edge_fires :
    ((stateOf (exec (.edgeConfirmed 2) (triggered.setInput 2 ((seen 2 990).input 2)))).train 1).map
      (fun u => (u.state, u.startTime)) = some (.armed, some 1030) := by decide +kernel

theorem witness_TriggerArmsOrStartsLate :
    let t := { waiter with start := .afterEdge 6 1 40 };
    let s := busy.setTrain 1 (some t);
    s.train 1 = some t ∧ t.segments[0]? = some ⟨.high, 4⟩
      ∧ isFuture s.deviceTime ((961 : Time) + BitVec.ofNat 48 t.start.offset) = true
      ∧ isFuture s.deviceTime ((960 : Time) + BitVec.ofNat 48 t.start.offset) = false := by decide +kernel

theorem witness_HoldoffTimerExpires :
    (let s := ready.setRing 1 { ring with timer := .running 1000 };
      (s.ring 1).state = .active ∧ (s.ring 1).timer = .running s.deviceTime)
    ∧ (ready.ring 3).state ≠ .active := by decide +kernel

theorem witness_QuiesceLimitDiscardsWhatIsStaged :
    let s := { faultedKeeps with device := .quiescing, quiesceElapsed := 125000, fetch := .idle, closing := [⟨2, 0⟩, ⟨0, 1⟩] };
    s.device = .quiescing ∧ 125000 ≤ s.quiesceElapsed
      ∧ s.closing.Pairwise takenFirst := by decide +kernel

end Sys2Proof.Tests
end

section
/-! PROOFS. Trains (chapter 3): what the delivery of an entry, a level request and the entry into a segment do,
and the statement about a BOUNDARY before the last segment. -/

namespace Sys2Proof.Machine

/-- The calendar's head, due now, is removed and its owner acts (R15). -/
theorem State.deliver_of_dueNow {s : State} {o : Owner} {a : Action} {rest : List Entry} (h : DueNow s o a rest)
    (act : State → State) : s.deliver o a act = act { s with calendar := rest } := by
  have due : s.dueEntry = some { due := s.deviceTime, owner := o, action := a } :=
    (s.dueEntry_eq_some _).mpr ⟨rest, h, rfl⟩
  have popped : s.popEntry = { s with calendar := rest } := by simp only [State.popEntry, h, List.tail_cons]
  obtain ⟨-, e⟩ | ⟨n, -⟩ := s.deliver_cases o a act
  · rw [e, popped]
  · exact absurd due n

/-- CARRIER starts the modulator at position 0, LOW and HIGH stop it; the line's settings stay (R28, R31, R35). -/
theorem Line.take_eq (l : Line) (v : LineLevel) :
    l.take v =
      { l with
        present := v
        modulator := if v = LineLevel.carrier then
          some { position := 0, high := decide (0 < l.highWidth) } else none } := by
  cases v <;> rfl

/-- A train that enters a segment it has asks its line for the segment's level and the calendar for a BOUNDARY at
the segment's end (R43, R51). -/
theorem State.enterSegment_of_segment (s : State) (i : Fin 32) {t : Train} {k : Nat} {g : Segment}
    (h : t.segments[k]? = some g) :
    s.enterSegment i t k =
      ((s.setTrain i (some { t with index := k })).levelRequest t.line g.level).insert
        (.train i) .boundary (after s.deviceTime g.duration) := by
  simp only [State.enterSegment, h]

/-- Before the last segment a BOUNDARY only moves the train on, whatever its state and repetitions (R51). -/
theorem State.boundary_of_next {s : State} {i : Fin 32} {t : Train} (ht : s.train i = some t)
    (h : t.index + 1 < t.segments.length) : s.boundary i = s.enterSegment i t (t.index + 1) := by
  simp only [State.boundary, ht, if_pos h]

/-- BOUNDARY_DELIVERED is the train's BOUNDARY on the calendar without the delivered entry (R15, R51). -/
theorem exec_boundaryDelivered_of_dueNow {s : State} {k : Fin 32} {rest : List Entry}
    (h : DueNow s (.train k) .boundary rest) :
    exec (.boundaryDelivered k) s = .next (State.boundary { s with calendar := rest } k) :=
  congrArg Host.Outcome.next (State.deliver_of_dueNow h fun r => r.boundary k)

/-- Settles O46: the delivered BOUNDARY enters the next segment, whose level request is `Line.take`. -/
theorem boundaryMovesToTheNextSegment : Obligations.BoundaryMovesToTheNextSegment := by
  intro s k t g rest due ht hg
  have next : t.index + 1 < t.segments.length := (List.getElem?_eq_some_iff.mp hg).1
  have live : ({ s with calendar := rest } : State).train k = some t := ht
  rw [exec_boundaryDelivered_of_dueNow due, State.boundary_of_next live next, State.enterSegment_of_segment _ k hg,
    State.levelRequest, Line.take_eq]
  rfl

end Sys2Proof.Machine
end

section
/-! PROOFS. Capture windows (chapter 4): what the opening of a capture does, with and without a close time, and
the statement about OPEN_DELIVERED. -/

namespace Sys2Proof.Machine

/-- A close time of 0 means none: no CLOSE is requested (R84, R85). -/
theorem State.insertClose_of_zero (s : State) (i : Fin 16) {c : Capture} (h : c.closeTime = 0) :
    s.insertClose i c = s := by
  simp only [State.insertClose, if_pos h]

/-- A capture with a close time has its CLOSE requested there (R84, R85). -/
theorem State.insertClose_of_ne_zero (s : State) (i : Fin 16) {c : Capture} (h : c.closeTime ≠ 0) :
    s.insertClose i c = s.insert (.capture i) .closeWindow c.closeTime := by
  simp only [State.insertClose, if_neg h]

/-- A capture that opens takes this tick as its effective open time, whatever its state was (R85). -/
theorem State.openCapture_of_capture {s : State} {i : Fin 16} {c : Capture} (h : s.capture i = some c) :
    s.openCapture i =
      (s.setCapture i (some { c with state := .opened, effectiveOpen := s.deviceTime })).insertClose i c := by
  simp only [State.openCapture, h]

/-- OPEN_DELIVERED opens the capture on the calendar without the delivered entry (R15, R85). -/
theorem exec_openDelivered_of_dueNow {s : State} {k : Fin 16} {rest : List Entry}
    (h : DueNow s (.capture k) .openWindow rest) :
    exec (.openDelivered k) s = .next (State.openCapture { s with calendar := rest } k) :=
  congrArg Host.Outcome.next (State.deliver_of_dueNow h fun r => r.openCapture k)

/-- Settles O52: the delivered OPEN opens the capture, and the two cases of its close time are those of
`State.insertClose`. -/
theorem openDeliveredOpensTheWindow : Obligations.OpenDeliveredOpensTheWindow := by
  intro s k c rest due hc opened
  have live : ({ s with calendar := rest } : State).capture k = some c := hc
  have step : exec (.openDelivered k) s = .next (opened.insertClose k c) := by
    rw [exec_openDelivered_of_dueNow due, State.openCapture_of_capture live]
  constructor
  · intro noClose
    rw [step, State.insertClose_of_zero opened k noClose]
  · intro close
    rw [step, State.insertClose_of_ne_zero opened k close]

end Sys2Proof.Machine
end

section
/-! PROOFS. The command unit (chapter 6): the arrival of a record whose ring grants a place, the answer in that
place, and the two outcomes of the checks, refusal and acceptance. -/

namespace Sys2Proof.Machine

set_option Elab.async false

variable {s : State}

/-- The one outstanding read, read off the fetch state (R117). -/
theorem Fetch.outstanding_eq_some {f : Fetch} {r : SubmissionRead} : f.outstanding = some r ↔ f = .reading r := by
  cases f <;> simp [Fetch.outstanding]

theorem Fetch.isSome_outstanding {f : Fetch} : f.outstanding.isSome = true ↔ ∃ r, f = .reading r := by
  cases f <;> simp [Fetch.outstanding]

/-- The waiting fence, read off the fetch state (R136). -/
theorem Fetch.waiting_eq_some {f : Fetch} {w : Fence} : f.waiting = some w ↔ f = .fenced w := by
  cases f <;> simp [Fetch.waiting]

/-- A listening part takes a host event at once (R2). -/
theorem State.hostEvent_of_listening (h : s.Listening) (e : HostEvent) : s.hostEvent e = s.takeHost e :=
  s.hostEvent_taken e h.1 h.2.1 h.2.2

/-- The data of the outstanding read is taken at once by a part that fetches (R119). -/
theorem State.submit_of_fetching (h : s.Fetching) (c : Submission) :
    s.submit c = ({ s with head := (s.head + 1) % s.sqSize.toNat } : State).tryPlace s.deviceTime c := by
  obtain ⟨listens, running, reads⟩ := h
  obtain ⟨r, hr⟩ := Fetch.isSome_outstanding.mp reads
  rw [State.submit, State.hostEvent_of_listening listens]
  simp only [State.takeHost, State.readReturned, hr, running, if_true]

/-- A header that names an ACTIVE ring has it as its target (R122). -/
theorem State.target_of_named {h : Header} {i : Fin 4} (named : ringNumber h.ring = some i)
    (active : (s.ring i).state = .active) : s.target h = i := by
  simp [State.target, State.namedActive, named, active]

/-- A header that names an ACTIVE ring passes the ring check (R122). -/
theorem State.ringRefusal_of_named {h : Header} {i : Fin 4} (named : ringNumber h.ring = some i)
    (active : (s.ring i).state = .active) : s.ringRefusal h = none := by
  simp [State.ringRefusal, named, active]

/-- A ring keeps its state, size and indices when a place is reserved on it (R148). -/
@[simp] theorem State.ring_reserve_state (i k : Fin 4) : ((s.reserve i).ring k).state = (s.ring k).state := by
  rw [State.ring_reserve]
  split
  · subst i
    rfl
  · rfl

@[simp] theorem State.ring_reserve_staged (i k : Fin 4) : ((s.reserve i).ring k).staged = (s.ring k).staged := by
  rw [State.ring_reserve]
  split
  · subst i
    rfl
  · rfl

/-- The mask depends on the rings' states alone (R162). -/
theorem State.faultMask_congr {t : State} (h : ∀ k, (t.ring k).state = (s.ring k).state) :
    t.faultMask = s.faultMask := by
  simp only [State.faultMask, h]

/-- A write of a ring that was just written replaces it. -/
theorem State.setRing_setRing (i : Fin 4) (x y : Ring) : (s.setRing i x).setRing i y = s.setRing i y := by
  simp [State.setRing]

/-- A final in a place just reserved is a record staged without one (R148 to R150). -/
theorem State.stageFinal_reserve (i : Fin 4) (c : Completion) : (s.reserve i).stageFinal i c = s.stageFree i c := by
  rw [State.stageFinal, State.stageFree, State.ring_reserve, if_pos rfl, State.reserve, State.setRing_setRing,
    Nat.add_sub_cancel]

/-- The answer of a command in its own place, with its return tick (R129, R149). -/
theorem State.stageCmdDone_reserve (i : Fin 4) (st : Status) (tag : Tag) (returned : Time) (n : Nat) :
    (s.reserve i).stageCmdDone i st tag returned n =
      s.stageFree i { s.answer st tag n with time2 := returned } := by
  rw [State.stageCmdDone, State.stageFinal_reserve, State.cmdDoneRecord,
    State.faultMask_congr (s := s) (fun k => State.ring_reserve_state i k)]
  rfl

/-- A record whose target has a place is processed there at the tick of its return (R119, R123). -/
theorem State.submit_of_place (h : s.Fetching) {c : Submission} {i : Fin 4} (target : s.target c.header = i)
    (place : (s.ring i).account < Config.accountPlaces) :
    s.submit c = State.issueRead (match (s.consumed.reserve i).check i c with
      | some st => (s.consumed.reserve i).stageCmdDone i st c.header.tag s.deviceTime 0
      | none => (s.consumed.reserve i).accept i s.deviceTime c) := by
  have granted : (s.ring i).hasPlace = true := by simpa [Ring.hasPlace] using place
  subst target
  rw [State.submit_of_fetching h, State.tryPlace]
  change (if (s.ring (s.target c.header)).hasPlace = true then
      if s.device = .running then _ else _ else _) = _
  rw [if_pos granted, if_pos h.2.1]
  rfl

/-- A record that fails a check is only answered (R128). -/
theorem State.submit_refused (h : s.Fetching) {c : Submission} {i : Fin 4} {st : Status}
    (target : s.target c.header = i) (place : (s.ring i).account < Config.accountPlaces)
    (check : (s.consumed.reserve i).check i c = some st) :
    s.submit c = (s.consumed.stageFree i (s.consumed.answer st c.header.tag 0)).issueRead := by
  rw [State.submit_of_place h target place, check]
  exact congrArg State.issueRead (State.stageCmdDone_reserve i st c.header.tag s.deviceTime 0)

/-- A record that passes every check is carried out, its place reserved (R130). -/
theorem State.submit_accepted (h : s.Fetching) {c : Submission} {i : Fin 4}
    (grants : s.Grants c.header i) (check : (s.consumed.reserve i).check i c = none) :
    s.submit c = ((s.consumed.reserve i).accept i s.deviceTime c).issueRead := by
  rw [State.submit_of_place h (State.target_of_named grants.1 grants.2.1) grants.2.2, check]

/-- While the command's place is reserved its ring still passes the ring check. -/
theorem State.ringRefusal_of_grants {h : Header} {i : Fin 4} (grants : s.Grants h i) :
    (s.consumed.reserve i).ringRefusal h = none :=
  State.ringRefusal_of_named grants.1 ((State.ring_reserve_state i i).trans grants.2.1)

theorem State.target_of_grants {h : Header} {i : Fin 4} (grants : s.Grants h i) : s.target h = i :=
  State.target_of_named grants.1 grants.2.1

/-- A condition that holds refuses nothing. -/
theorem refuseIf_not {ok : Bool} (h : ok = true) (st : Status) : refuseIf (!ok) st = none := by
  simp [refuseIf, h]

theorem refuseIf_of_false {fails : Bool} (h : fails = false) (st : Status) : refuseIf fails st = none := by
  simp [refuseIf, h]

theorem refuseIf_of_true {fails : Bool} (h : fails = true) (st : Status) : refuseIf fails st = some st := by
  simp [refuseIf, h]

/-- No flag and no reserved byte set: the header's fields are in range (R127). -/
theorem Header.fieldsOk_of_zero {h : Header} (flags : h.flags = 0) (reserved : h.reserved = 0) (d : BitVec 8) :
    Header.fieldsOk h d = true := by
  simp [Header.fieldsOk, Header.flagsWithin, flags, reserved]

/-- The kinds of record that only take a number and an answer (R132). -/
theorem State.check_nop {h : Header} {i : Fin 4} (grants : s.Grants h i) (flags : h.flags = 0)
    (reserved : h.reserved = 0) : (s.consumed.reserve i).check i (.nop h) = none := by
  simp only [State.check, refuseIf_not (Header.fieldsOk_of_zero flags reserved 0),
    State.ringRefusal_of_grants grants, firstRefusal]

theorem State.check_readTime {h : Header} {i : Fin 4} (grants : s.Grants h i) (flags : h.flags = 0)
    (reserved : h.reserved = 0) : (s.consumed.reserve i).check i (.readTime h) = none := by
  simp only [State.check, refuseIf_not (Header.fieldsOk_of_zero flags reserved 0),
    State.ringRefusal_of_grants grants, firstRefusal]

/-- A command answered OK after what it does: the answer stands in its own place, with the number it took. -/
theorem State.stageCmdDone_accepted (t : State) (i : Fin 4) (h : Header) (n : Nat) (returned : Time)
    (now : t.deviceTime = returned) :
    (t.reserve i).stageCmdDone i .ok h.tag returned n = t.stageFree i (t.answer .ok h.tag n) := by
  subst now
  exact State.stageCmdDone_reserve i .ok h.tag t.deviceTime n

end Sys2Proof.Machine
end

section
/-! PROOFS. The records (chapter 10): the decoder undoes the encoder, kind by kind; each submission command is
the return of its record; and where the 32 bytes of a completion record stand. -/

namespace Sys2Proof

set_option Elab.async false

/-- The byte above the low bits of a field, put before them. -/
theorem extract_append {w : Nat} (x : BitVec w) (n : Nat) :
    x.extractLsb' n 8 ++ x.extractLsb' 0 n = x.extractLsb' 0 (8 + n) := by
  rw [BitVec.extractLsb'_append_extractLsb'_eq_extractLsb' (by omega)]

@[simp] theorem le16_byteOf (x : BitVec 16) : le16 (byteOf x 0) (byteOf x 1) = x :=
  (extract_append x 8).trans BitVec.extractLsb'_eq_self

/-- The four low bytes of a field, put together. -/
theorem low_four_bytes {w : Nat} (x : BitVec w) :
    byteOf x 3 ++ (byteOf x 2 ++ (byteOf x 1 ++ byteOf x 0)) = x.extractLsb' 0 (8 + (8 + (8 + 8))) := by
  have two : byteOf x 1 ++ byteOf x 0 = x.extractLsb' 0 (8 + 8) := extract_append x 8
  have three : byteOf x 2 ++ x.extractLsb' 0 (8 + 8) = x.extractLsb' 0 (8 + (8 + 8)) := extract_append x (8 + 8)
  have four : byteOf x 3 ++ x.extractLsb' 0 (8 + (8 + 8)) = x.extractLsb' 0 (8 + (8 + (8 + 8))) :=
    extract_append x (8 + (8 + 8))
  rw [two, three, four]

@[simp] theorem le32_byteOf (x : BitVec 32) : le32 (byteOf x 0) (byteOf x 1) (byteOf x 2) (byteOf x 3) = x :=
  (low_four_bytes x).trans BitVec.extractLsb'_eq_self

@[simp] theorem le64_byteOf (x : BitVec 64) :
    le64 (byteOf x 0) (byteOf x 1) (byteOf x 2) (byteOf x 3) (byteOf x 4) (byteOf x 5) (byteOf x 6) (byteOf x 7)
      = x := by
  have five : byteOf x 4 ++ x.extractLsb' 0 (8 + (8 + (8 + 8))) = x.extractLsb' 0 (8 + (8 + (8 + (8 + 8)))) :=
    extract_append x (8 + (8 + (8 + 8)))
  have six : byteOf x 5 ++ x.extractLsb' 0 (8 + (8 + (8 + (8 + 8)))) =
      x.extractLsb' 0 (8 + (8 + (8 + (8 + (8 + 8))))) := extract_append x (8 + (8 + (8 + (8 + 8))))
  have seven : byteOf x 6 ++ x.extractLsb' 0 (8 + (8 + (8 + (8 + (8 + 8))))) =
      x.extractLsb' 0 (8 + (8 + (8 + (8 + (8 + (8 + 8)))))) := extract_append x (8 + (8 + (8 + (8 + (8 + 8)))))
  rw [le64, low_four_bytes, five, six, seven]
  exact (extract_append x (8 + (8 + (8 + (8 + (8 + (8 + 8))))))).trans BitVec.extractLsb'_eq_self

theorem bytesOf_two {w : Nat} (x : BitVec w) : bytesOf x 2 = [byteOf x 0, byteOf x 1] := rfl

theorem bytesOf_four {w : Nat} (x : BitVec w) :
    bytesOf x 4 = [byteOf x 0, byteOf x 1, byteOf x 2, byteOf x 3] := rfl

theorem bytesOf_eight {w : Nat} (x : BitVec w) :
    bytesOf x 8 = [byteOf x 0, byteOf x 1, byteOf x 2, byteOf x 3, byteOf x 4, byteOf x 5, byteOf x 6, byteOf x 7] :=
  rfl

/-- Byte `k` of an encoded record (R202). -/
theorem encodeSubmission_getElem (c : Submission) (k : Nat) (h : k < 64) :
    (encodeSubmission c)[k] = c.bytes.getD k 0 := by
  simp [encodeSubmission]

/-- The eight bytes before the body (R202). -/
theorem Submission.bytes_eq (c : Submission) :
    c.bytes = c.kind :: c.header.flags :: byteOf c.header.tag 0 :: byteOf c.header.tag 1 :: c.header.ring
      :: c.header.line :: byteOf c.header.reserved 0 :: byteOf c.header.reserved 1 :: c.bodyBytes := rfl

theorem decodeHeader_encode (c : Submission) : decodeHeader (encodeSubmission c) = c.header := by
  simp only [decodeHeader, encodeSubmission_getElem, Submission.bytes_eq, List.getD_cons_succ, List.getD_cons_zero,
    le16_byteOf]

theorem kind_encode (c : Submission) : (encodeSubmission c)[0] = c.kind := by
  simp only [encodeSubmission_getElem, Submission.bytes_eq, List.getD_cons_zero]

/-- Byte `k` of the body of an encoded record (R203). -/
theorem encodeSubmission_body (c : Submission) (k : Nat) (h : k + 8 < 64) :
    (encodeSubmission c)[k + 8] = c.bodyBytes.getD k 0 := by
  rw [encodeSubmission_getElem, Submission.bytes_eq]
  rfl

/-- A field of the body stands at its position, whatever the kind (R203). -/
theorem decodeDefineRing_encode (h : Header) (b : DefineRingBody) :
    decodeDefineRing (encodeSubmission (.defineRing h b)) = b := by
  simp [decodeDefineRing, encodeSubmission_getElem, Submission.bytes_eq, Submission.bodyBytes, bytesOf_four,
    bytesOf_eight]

theorem decodeSetOutput_encode (h : Header) (b : SetOutputBody) :
    decodeSetOutput (encodeSubmission (.setOutput h b)) = b := by
  simp [decodeSetOutput, encodeSubmission_getElem, Submission.bytes_eq, Submission.bodyBytes, bytesOf_two]

theorem decodeSetInput_encode (h : Header) (b : SetInputBody) :
    decodeSetInput (encodeSubmission (.setInput h b)) = b := by
  simp [decodeSetInput, encodeSubmission_getElem, Submission.bytes_eq, Submission.bodyBytes, bytesOf_two]

/-- Eight segment words, listed (R203). -/
theorem segments_eq (v : Vector (BitVec 32) 8) : #v[v[0], v[1], v[2], v[3], v[4], v[5], v[6], v[7]] = v := by
  ext i hi
  interval_cases i <;> rfl

theorem decodeStartTrain_encode (h : Header) (b : StartTrainBody) :
    decodeStartTrain (encodeSubmission (.startTrain h b)) = b := by
  simp [decodeStartTrain, encodeSubmission_getElem, Submission.bytes_eq, Submission.bodyBytes, bytesOf_two,
    bytesOf_four, bytesOf_eight, segments_eq]

theorem decodeArmCapture_encode (h : Header) (b : ArmCaptureBody) :
    decodeArmCapture (encodeSubmission (.armCapture h b)) = b := by
  simp [decodeArmCapture, encodeSubmission_getElem, Submission.bytes_eq, Submission.bodyBytes, bytesOf_two,
    bytesOf_eight]

theorem decodeTimeField_fence (h : Header) (n : BitVec 64) :
    decodeTimeField (encodeSubmission (.fence h n)) = n := by
  simp [decodeTimeField, encodeSubmission_getElem, Submission.bytes_eq, Submission.bodyBytes, bytesOf_eight,
    List.replicate]

theorem decodeTimeField_adjustTime (h : Header) (v : BitVec 64) :
    decodeTimeField (encodeSubmission (.adjustTime h v)) = v := by
  simp [decodeTimeField, encodeSubmission_getElem, Submission.bytes_eq, Submission.bodyBytes, bytesOf_eight,
    List.replicate]

/-- A code outside 1 to 10 keeps its header and is decoded as no kind (R202). -/
theorem decodeSubmission_of_unknown {r : Vector Byte 64} (k : r[0].toNat = 0 ∨ 10 < r[0].toNat) :
    decodeSubmission r = .unknown r[0] (decodeHeader r) := by
  have differs : ∀ n : Nat, 1 ≤ n → n ≤ 10 → r[0] ≠ BitVec.ofNat 8 n := by
    intro n low high e
    have := congrArg BitVec.toNat e
    simp only [BitVec.toNat_ofNat] at this
    omega
  simp only [decodeSubmission, differs 1, differs 2, differs 3, differs 4, differs 5, differs 6, differs 7, differs 8,
    differs 9, differs 10, Nat.reduceLeDiff, if_false]

/-- The decoder undoes the encoder, on every record whose kind byte is that of its kind (R202, R203). -/
theorem decode_encode (c : Submission) (known : ∀ k h, c = .unknown k h → k.toNat = 0 ∨ 10 < k.toNat) :
    decodeSubmission (encodeSubmission c) = c := by
  have code := kind_encode c
  have header := decodeHeader_encode c
  cases c with
  | unknown k h =>
    rw [decodeSubmission_of_unknown (by rw [code]; exact known k h rfl), code, header]
    rfl
  | nop h => simp [decodeSubmission, code, header, Submission.kind, Submission.header]
  | defineRing h b =>
    simp [decodeSubmission, code, header, Submission.kind, Submission.header, decodeDefineRing_encode]
  | setOutput h b =>
    simp [decodeSubmission, code, header, Submission.kind, Submission.header, decodeSetOutput_encode]
  | setInput h b =>
    simp [decodeSubmission, code, header, Submission.kind, Submission.header, decodeSetInput_encode]
  | startTrain h b =>
    simp [decodeSubmission, code, header, Submission.kind, Submission.header, decodeStartTrain_encode]
  | armCapture h b =>
    simp [decodeSubmission, code, header, Submission.kind, Submission.header, decodeArmCapture_encode]
  | cancel h => simp [decodeSubmission, code, header, Submission.kind, Submission.header]
  | fence h n =>
    simp [decodeSubmission, code, header, Submission.kind, Submission.header, decodeTimeField_fence]
  | readTime h => simp [decodeSubmission, code, header, Submission.kind, Submission.header]
  | adjustTime h v =>
    simp [decodeSubmission, code, header, Submission.kind, Submission.header, decodeTimeField_adjustTime]

end Sys2Proof

namespace Sys2Proof.Machine

set_option Elab.async false

/-- Settles O3: kind by kind, each field's bytes put together again. -/
theorem recordBytesDecodeToTheirRecord : Obligations.RecordBytesDecodeToTheirRecord :=
  fun c known => decode_encode c known

/-- The return of the 64 bytes of a known record is its submission (R119, log 1). -/
theorem submissionReadReturn_encode (s : State) (c : Submission) (known : ∀ k h, c ≠ .unknown k h) :
    exec (.submissionReadReturn .outstanding (encodeSubmission c)) s = .next (s.submit c) := by
  change Host.Outcome.next (s.hostEvent (.readReturn .outstanding (decodeSubmission (encodeSubmission c)))) = _
  rw [decode_encode c fun k h e => absurd e (known k h)]
  rfl

/-- Settles O4: the decoder gives each command's record back. -/
theorem submissionCommandIsItsReadReturn : Obligations.SubmissionCommandIsItsReadReturn := by
  intro s h
  have returned (c : Submission) (known : ∀ k h, c ≠ .unknown k h) :
      .next (s.submit c) = exec (.submissionReadReturn .outstanding (encodeSubmission c)) s :=
    (submissionReadReturn_encode s c known).symm
  exact ⟨returned _ nofun, fun _ => returned _ nofun, fun _ => returned _ nofun, fun _ => returned _ nofun,
    fun _ => returned _ nofun, fun _ => returned _ nofun, returned _ nofun, fun _ => returned _ nofun,
    returned _ nofun, fun _ => returned _ nofun⟩

/-- A flags byte holds the phase and the four flags in bits 0 to 4, and nothing above (R204). -/
theorem Completion.flags_bits (c : Completion) (phase : Bool) :
    (c.flags phase).getLsbD 0 = phase ∧ (c.flags phase).getLsbD 1 = c.late
      ∧ (c.flags phase).getLsbD 2 = c.lateOpen ∧ (c.flags phase).getLsbD 3 = c.cascade
      ∧ (c.flags phase).getLsbD 4 = decide (c.direction = .falling)
      ∧ (c.flags phase).extractLsb' 5 3 = 0#3 := by
  unfold Completion.flags
  generalize decide (c.direction = .falling) = falling
  generalize c.late = late
  generalize c.lateOpen = lateOpen
  generalize c.cascade = cascade
  revert phase late lateOpen cascade falling
  decide

/-- Settles O5: the bytes are a list of known length, and the flags byte's bits are read off. -/
theorem completionRecordLayout : Obligations.CompletionRecordLayout := by
  intro c phase
  refine ⟨rfl, rfl, rfl, ?_, rfl, rfl, rfl, rfl⟩
  intro f e
  obtain rfl : c.flags phase = f := Option.some.inj e
  exact c.flags_bits phase

end Sys2Proof.Machine
end

section
/-! PROOFS. The operands of records (chapter 10): what the fields of a header and the bits of a time field say, and
when the checks that read the tables pass. -/

namespace Sys2Proof.Machine

set_option Elab.async false

variable {s : State}

theorem outLine_of_toNat {h : Header} {l : Fin 16} (e : h.line.toNat = l.val) : h.outLine = some l := by
  simp [Header.outLine, e]

theorem inLine_of_toNat {h : Header} {l : Fin 8} (e : h.line.toNat = l.val) : h.inLine = some l := by
  simp [Header.inLine, e]

/-- The bits above `n` are clear exactly when the number is below 2^n. -/
theorem upperClear_iff (n : Nat) (x : BitVec 64) : upperClear n x = true ↔ x.toNat < 2 ^ n := by
  have zero : x >>> n = 0#64 ↔ x.toNat / 2 ^ n = 0 := by
    rw [← BitVec.toNat_inj, BitVec.toNat_ushiftRight, Nat.shiftRight_eq_div_pow]
    rfl
  rw [upperClear, decide_eq_true_eq, zero, Nat.div_eq_zero_iff]
  simp

theorem timeBits_eq (x : BitVec 64) : timeBits x = x.setWidth 48 := by
  apply BitVec.eq_of_toNat_eq
  simp [timeBits]

theorem offsetBits_of_lt {x : BitVec 64} (h : x.toNat < 2 ^ 32) : offsetBits x = x.toNat := by
  simpa [offsetBits] using h

/-- A tag names a work exactly when an entry of the tag map bears it (R131). -/
theorem State.lookup_isSome_iff (t : Tag) : (s.lookup t).isSome = true ↔ ∃ e ∈ s.tagMap, e.1 = t := by
  simp [State.lookup, List.find?_isSome]

theorem State.lookup_eq_none {t : Tag} (fresh : ∀ e ∈ s.tagMap, e.1 ≠ t) : s.lookup t = none := by
  simpa [State.lookup, List.find?_eq_none] using fresh

/-- No train and no capture is live (R8). -/
theorem State.anyLive_iff : s.anyLive = true ↔ (∃ k, s.train k ≠ none) ∨ ∃ k, s.capture k ≠ none := by
  simp [State.anyLive, List.any_eq_true, Option.isSome_iff_ne_none]

/-- A live capture names the line (R76). -/
theorem State.inputBusy_iff (l : Fin 8) : s.inputBusy l = true ↔ ∃ k, ∃ c ∈ s.capture k, c.line = l := by
  simp [State.inputBusy, List.any_eq_true, Option.any_eq_true]

/-- The lead check, on the distance in ticks (R6). -/
theorem leadOk_iff (now t : Time) : leadOk now t = true ↔ 40 ≤ (t - now).toNat ∧ (t - now).toNat < 2 ^ 47 := by
  have bound : (t - now).toNat ≤ Config.horizon ↔ (t - now).toNat < 2 ^ 47 := Nat.le_sub_one_iff_lt (by decide)
  rw [leadOk, Bool.and_eq_true, decide_eq_true_eq, decide_eq_true_eq, bound]
  rfl

/-- An accepted command that acts and is then answered in its own place (R129, R130). -/
theorem State.submit_done (hf : s.Fetching) {c : Submission} {i : Fin 4} (grants : s.Grants c.header i)
    (check : (s.consumed.reserve i).check i c = none) {t : State}
    (does : (s.consumed.reserve i).accept i s.deviceTime c =
      (t.reserve i).stageCmdDone i .ok c.header.tag s.deviceTime s.admissionCounter.toNat) :
    s.submit c = (t.stageFree i
      { t.answer .ok c.header.tag s.admissionCounter.toNat with time2 := s.deviceTime }).issueRead := by
  rw [State.submit_accepted hf grants check, does, State.stageCmdDone_reserve]

end Sys2Proof.Machine
end

section
/-! PROOFS. The plain commands (chapters 1, 2, 4, 6): what NOP, READ_TIME, ADJUST_TIME, SET_OUTPUT and SET_INPUT do
when they are accepted, and a record that finds no place. -/

namespace Sys2Proof.Machine

set_option Elab.async false

variable {s : State}

/-- Settles O11: neither kind does anything before its answer, and the bytes of a NOP are that NOP. -/
theorem nopAndReadTimeAreAnsweredOk : Obligations.NopAndReadTimeAreAnsweredOk := by
  intro s h i hf grants flags reserved
  have nop := State.submit_done hf (c := .nop h) grants (State.check_nop grants flags reserved)
    (t := s.accepted) rfl
  have readTime := State.submit_done hf (c := .readTime h) grants (State.check_readTime grants flags reserved)
    (t := s.accepted) rfl
  exact ⟨congrArg Host.Outcome.next nop, congrArg Host.Outcome.next readTime,
    (submissionReadReturn_encode s (.nop h) nofun).trans (congrArg Host.Outcome.next nop)⟩

/-- A timer moves with device time on an ACTIVE ring only; nothing else of the ring moves (R9, log 18). -/
theorem Ring.shiftTimer_eq (r : Ring) (d : Time) :
    r.shiftTimer d =
      { r with
        timer := match r.state, r.timer with
          | .active, .running e => .running (e + d)
          | _, timer => timer } := by
  obtain ⟨state, base, size, writeIndex, phase, hostHead, staged, owed, level, threshold, holdoff, unnotified,
    timer, awaiting⟩ := r
  cases state <;> cases timer <;> rfl

@[simp] theorem State.ring_adjust (v : Time) (k : Fin 4) :
    (s.adjust v).ring k = (s.ring k).shiftTimer (v - s.deviceTime) := by
  simp [State.adjust, State.ring]

/-- Two states that differ in their rings are equal when every ring is. -/
theorem State.rings_ext {t : State} (rest : t = { s with rings := t.rings }) (h : ∀ k, t.ring k = s.ring k) :
    t = s := by
  have rings : t.rings = s.rings := Vector.ext fun k hk => h ⟨k, hk⟩
  rw [rest, rings]

/-- A reservation does not see the timebase move. -/
theorem State.adjust_reserve (i : Fin 4) (v : Time) : (s.reserve i).adjust v = (s.adjust v).reserve i := by
  refine State.rings_ext rfl fun k => ?_
  rw [State.ring_adjust, State.ring_reserve, State.ring_reserve, State.ring_adjust, State.ring_adjust]
  split
  · simp only [Ring.shiftTimer_eq]
    rfl
  · rfl

theorem State.check_adjustTime {h : Header} {value : BitVec 64} {i : Fin 4} (grants : s.Grants h i)
    (flags : h.flags = 0) (reserved : h.reserved = 0) (small : value.toNat < 2 ^ 48)
    (idle : s.anyLive = false) : (s.consumed.reserve i).check i (.adjustTime h value) = none := by
  have fields : adjustTimeOk h value = true := by
    rw [adjustTimeOk, Header.fieldsOk_of_zero flags reserved, (upperClear_iff 48 value).mpr small]
    rfl
  have live : (s.consumed.reserve i).anyLive = false := idle
  simp only [State.check, refuseIf_not fields, State.ringRefusal_of_grants grants, refuseIf_of_false live,
    firstRefusal]

/-- Settles O12: the adjusted state with its place reserved, answered at the new time with the old return tick. -/
theorem adjustTimeMovesTheTimebase : Obligations.AdjustTimeMovesTheTimebase := by
  intro s h value i hf grants flags reserved small trains captures
  have idle : s.anyLive = false := by
    rw [← Bool.not_eq_true, State.anyLive_iff]
    simp [trains, captures]
  have done := State.submit_done hf (c := .adjustTime h value) grants
    (State.check_adjustTime grants flags reserved small idle) (t := s.accepted.adjust (timeBits value))
    (congrArg (fun x : State => x.stageCmdDone i .ok h.tag s.deviceTime s.admissionCounter.toNat)
      (State.adjust_reserve (s := s.accepted) i (timeBits value)))
  have mask : (s.accepted.adjust (timeBits value)).faultMask = s.consumed.faultMask :=
    State.faultMask_congr fun k => by
      rw [State.ring_adjust, Ring.shiftTimer_eq]
      rfl
  refine (congrArg Host.Outcome.next done).trans ?_
  rw [State.answer, mask]
  simp only [State.adjust, InputLine.shift, Ring.shiftTimer_eq, timeBits_eq]
  rfl

/-- SET_OUTPUT's operands, decoded (R24, R203). -/
theorem State.doSetOutput_eq {h : Header} {b : SetOutputBody} {l : Fin 16} {d : Drive} {v : Level} {f : FaultLevel}
    (line : h.outLine = some l) (drive : driveOfCode b.drive = some d) (idle : levelOfCode b.idle = some v)
    (fault : faultOfCode b.fault = some f) :
    s.doSetOutput h b = s.setLine l ((s.line l).set d v f b.highWidth.toNat b.period.toNat) := by
  simp only [State.doSetOutput, line, drive, idle, fault]

/-- A line set anew stands at its idle level with its modulator stopped (R26). -/
theorem Line.set_eq (l : Line) (d : Drive) (v : Level) (f : FaultLevel) (high period : Nat) :
    l.set d v f high period =
      { l with
        drive := d, idle := v, faultLevel := f, highWidth := high, period := period
        present := (match v with | .low => LineLevel.low | .high => LineLevel.high)
        modulator := none } := by
  cases v <;> rfl

theorem State.check_setOutput {h : Header} {b : SetOutputBody} {i : Fin 4} {l : Fin 16} (grants : s.Grants h i)
    (fields : setOutputOk h b = true) (line : h.outLine = some l) (free : (s.line l).owner = none) :
    (s.consumed.reserve i).check i (.setOutput h b) = none := by
  have owner : (h.outLine.any fun l => ((s.consumed.reserve i).line l).owner.isSome) = false := by
    rw [line]
    exact congrArg Option.isSome free
  simp only [State.check, refuseIf_not fields, State.ringRefusal_of_grants grants, refuseIf_of_false owner,
    firstRefusal]

/-- Settles O13: the line is set before the answer, whose place the line does not touch. -/
theorem setOutputReplacesTheLine : Obligations.SetOutputReplacesTheLine := by
  intro s h b i l d v f hf grants flags reserved number drive idle fault carrier free
  have line := outLine_of_toNat number
  have pair : carrierPairOk b.highWidth.toNat b.period.toNat = true := by
    obtain ⟨high, period⟩ | ⟨low, high⟩ := carrier
    · simp [carrierPairOk, high, period]
    · simp [carrierPairOk, low, high]
  have fields : setOutputOk h b = true := by
    simp [setOutputOk, Header.fieldsOk_of_zero flags reserved, line, drive, idle, fault, pair]
  have done := State.submit_done hf (c := .setOutput h b) grants (State.check_setOutput grants fields line free)
    (t := s.accepted.setLine l ((s.line l).set d v f b.highWidth.toNat b.period.toNat))
    (congrArg (fun x : State => x.stageCmdDone i .ok h.tag s.deviceTime s.admissionCounter.toNat)
      (State.doSetOutput_eq (s := s.accepted.reserve i) line drive idle fault))
  refine (congrArg Host.Outcome.next done).trans ?_
  rw [Line.set_eq]
  rfl

/-- SET_INPUT's operands, decoded (R75, R203). -/
theorem State.doSetInput_eq {h : Header} {b : SetInputBody} {l : Fin 8} {e : Bool}
    (line : h.inLine = some l) (enabled : enabledOfCode b.enabled = some e) :
    s.doSetInput h b = s.setInput l ((s.settled l).set e b.filterLength.toNat) := by
  simp only [State.doSetInput, line, enabled]

theorem State.check_setInput {h : Header} {b : SetInputBody} {i : Fin 4} {l : Fin 8} (grants : s.Grants h i)
    (fields : setInputOk h b = true) (line : h.inLine = some l) (free : s.inputBusy l = false) :
    (s.consumed.reserve i).check i (.setInput h b) = none := by
  have busy : (h.inLine.any fun l => (s.consumed.reserve i).inputBusy l) = false := by
    rw [line]
    exact free
  simp only [State.check, refuseIf_not fields, State.ringRefusal_of_grants grants, refuseIf_of_false busy,
    firstRefusal]

/-- Settles O14: the settled line is set anew before the answer. -/
theorem setInputRestartsTheFilter : Obligations.SetInputRestartsTheFilter := by
  intro s h b i l e hf grants flags reserved number enabled short free
  have line := inLine_of_toNat number
  have notBusy : s.inputBusy l = false := by
    rw [← Bool.not_eq_true, State.inputBusy_iff]
    rintro ⟨k, c, live, named⟩
    exact free k c live named
  have fields : setInputOk h b = true := by
    simp [setInputOk, Header.fieldsOk_of_zero flags reserved, line, enabled, short]
  have done := State.submit_done hf (c := .setInput h b) grants (State.check_setInput grants fields line notBusy)
    (t := s.accepted.setInput l ((s.settled l).set e b.filterLength.toNat))
    (congrArg (fun x : State => x.stageCmdDone i .ok h.tag s.deviceTime s.admissionCounter.toNat)
      (State.doSetInput_eq (s := s.accepted.reserve i) line enabled))
  exact congrArg Host.Outcome.next done

/-- Settles O26: the unchecked record is held with the tick of its return. -/
theorem recordWithoutAPlaceStalls : Obligations.RecordWithoutAPlaceStalls := by
  intro s data hf full
  have denied : ¬(s.ring (s.target (decodeSubmission data).header)).hasPlace = true := by
    simpa [Ring.hasPlace] using full
  have submitted : exec (.submissionReadReturn .outstanding data) s = .next (s.submit (decodeSubmission data)) := rfl
  rw [submitted, State.submit_of_fetching hf]
  exact congrArg Host.Outcome.next (if_neg denied)

end Sys2Proof.Machine
end

section
/-! PROOFS. DEFINE_RING (chapter 7): which rings may change, what the change makes of a ring, and the refusal of a
busy one. -/

namespace Sys2Proof.Machine

set_option Elab.async false

variable {s : State}

/-- Rings written at different places may be written in either order. -/
theorem State.setRing_comm {i k : Fin 4} (h : i ≠ k) (x y : Ring) :
    (s.setRing i x).setRing k y = (s.setRing k y).setRing i x := by
  refine State.rings_ext rfl fun j => ?_
  simp only [State.ring_setRing]
  split
  · split
    · subst k i
      exact absurd rfl h
    · rfl
  · rfl

/-- The operands of a DEFINE_RING that gives a size are in range (R163). -/
theorem defineRingOk_of_size {h : Header} {b : DefineRingBody} {k : Fin 4} (flags : h.flags = 0)
    (reserved : h.reserved = 0) (number : b.number.toNat = k.val) (notZero : k ≠ 0)
    (size : b.size.toNat ∈ [16, 32, 64, 128, 256, 512, 1024, 2048, 4096]) (base : b.base.toNat % 64 = 0)
    (level : b.level.toNat ≤ 3) (some : 1 ≤ b.threshold.toNat) (most : b.threshold.toNat ≤ 64)
    (holdoff : b.holdoff.toNat ≤ 65535) : defineRingOk h b = true := by
  have inRange : 1 ≤ k.val ∧ k.val ≤ 3 := by
    have : k.val ≠ 0 := fun e => notZero (Fin.ext e)
    omega
  have legal : b.size.toNat ∈ crSizes := size
  simp [defineRingOk, Header.fieldsOk_of_zero flags reserved, number, inRange, legal, base, level, some, most, holdoff]

theorem defineRingOk_of_zero {h : Header} {b : DefineRingBody} {k : Fin 4} (flags : h.flags = 0)
    (reserved : h.reserved = 0) (number : b.number.toNat = k.val) (notZero : k ≠ 0) (size : b.size = 0) :
    defineRingOk h b = true := by
  have inRange : 1 ≤ k.val ∧ k.val ≤ 3 := by
    have : k.val ≠ 0 := fun e => notZero (Fin.ext e)
    omega
  simp [defineRingOk, Header.fieldsOk_of_zero flags reserved, number, inRange, size]

theorem Fin.ofNat_of_eq {n : Nat} {k : Fin 4} (e : n = k.val) : Fin.ofNat 4 n = k := by
  subst e
  exact Fin.ext (Nat.mod_eq_of_lt k.isLt)

theorem State.check_defineRing {h : Header} {b : DefineRingBody} {i k : Fin 4} (grants : s.Grants h i)
    (fields : defineRingOk h b = true) (number : b.number.toNat = k.val) :
    (s.consumed.reserve i).check i (.defineRing h b) =
      refuseIf ((s.consumed.reserve i).ringBusy k i b.size.toNat) .ringBusy := by
  simp only [State.check, refuseIf_not fields, State.ringRefusal_of_grants grants, Fin.ofNat_of_eq number]
  cases (s.consumed.reserve i).ringBusy k i b.size.toNat <;> rfl

theorem size_ne_zero {b : DefineRingBody} (size : b.size.toNat ∈ [16, 32, 64, 128, 256, 512, 1024, 2048, 4096]) :
    b.size ≠ 0 := by
  intro e
  rw [e] at size
  revert size
  decide

/-- The account of a ring while a command's place is reserved on `i` (R148). -/
theorem State.ring_reserve_owed (i k : Fin 4) :
    ((s.reserve i).ring k).owed = (s.ring k).owed + if i = k then 1 else 0 := by
  rw [State.ring_reserve]
  split
  · subst i
    rfl
  · rfl

/-- A ring without staged records that owes no place but the command's own can be given a size, and so can one that
is not ACTIVE (R164 to R166). -/
theorem State.ringBusy_reserve_of_size {i k : Fin 4} {n : Nat} (size : n ≠ 0)
    (empty : (s.ring k).state ≠ .active ∨ (s.ring k).staged = [] ∧ (s.ring k).owed = 0) :
    (s.reserve i).ringBusy k i n = false := by
  rw [State.ringBusy]
  simp only [State.ring_reserve_state, State.ring_reserve_staged, State.ring_reserve_owed, size]
  cases state : (s.ring k).state with
  | undefined => rfl
  | faulted => rfl
  | active =>
    obtain ⟨staged, owed⟩ := empty.resolve_left (not_not_intro state)
    by_cases e : i = k <;> simp [staged, owed, e]

/-- A ring other than the target can be undefined when it holds nothing (R165, R166). -/
theorem State.ringBusy_reserve_of_zero {i k : Fin 4} (other : i ≠ k)
    (empty : (s.ring k).state = .undefined ∨ (s.ring k).staged = [] ∧ (s.ring k).owed = 0) :
    (s.reserve i).ringBusy k i 0 = false := by
  rw [State.ringBusy]
  simp only [State.ring_reserve_state, State.ring_reserve_staged, State.ring_reserve_owed, if_neg other]
  cases state : (s.ring k).state with
  | undefined => rfl
  | faulted =>
    obtain ⟨staged, owed⟩ := empty.resolve_left (by simp [state])
    simp [staged, owed]
  | active =>
    obtain ⟨staged, owed⟩ := empty.resolve_left (by simp [state])
    simp [staged, owed, other]

/-- A ring that cannot change is busy, the command's own place not counted against it (R165, R166). -/
theorem State.ringBusy_reserve_of_busy {i k : Fin 4} {n : Nat}
    (busy : (s.ring k).state = .active
        ∧ ((s.ring k).staged ≠ [] ∨ (s.ring k).owed ≠ 0 ∨ n = 0 ∧ i = k)
      ∨ (s.ring k).state = .faulted ∧ n = 0 ∧ ((s.ring k).staged ≠ [] ∨ (s.ring k).owed ≠ 0)) :
    (s.reserve i).ringBusy k i n = true := by
  rw [State.ringBusy]
  simp only [State.ring_reserve_state, State.ring_reserve_staged, State.ring_reserve_owed]
  obtain ⟨state, why⟩ | ⟨state, zero, why⟩ := busy
  · simp only [state]
    obtain staged | owed | ⟨zero, own⟩ := why
    · simp [staged]
    · by_cases e : i = k <;> simp [e, owed]
    · simp [zero, own]
  · simp only [state]
    obtain staged | owed := why
    · simp [zero, staged]
    · simp [zero, owed]

/-- A ring put in service keeps the queue and the account of a ring that was not UNDEFINED (R164, R166). -/
theorem Ring.kept_define (r : Ring) (base : HostAddr) (size : Nat) (level : Fin 4) (threshold holdoff : Nat) :
    r.kept.define base size level threshold holdoff =
      { state := .active, base := base, size := size, writeIndex := 0, phase := true, hostHead := 0
        staged := if r.state = .undefined then [] else r.staged
        owed := if r.state = .undefined then 0 else r.owed
        level := level, threshold := threshold, holdoff := holdoff
        unnotified := 0, timer := .stopped, awaiting := false } := by
  by_cases h : r.state = .undefined <;> simp [Ring.kept, Ring.define, Ring.undefined, h]

/-- The change of a ring does not see the place reserved for the command that makes it, unless it is the command's
own ring, which keeps it. -/
theorem State.setRing_kept_reserve {i k : Fin 4} (target : i = k → (s.ring k).state ≠ .undefined) (base : HostAddr)
    (size : Nat) (level : Fin 4) (threshold holdoff : Nat) :
    (s.reserve i).setRing k (((s.reserve i).ring k).kept.define base size level threshold holdoff) =
      (s.setRing k ((s.ring k).kept.define base size level threshold holdoff)).reserve i := by
  by_cases e : i = k
  · subst e
    simp only [State.reserve, State.ring_setRing_self, State.setRing_setRing, Ring.kept_define, if_neg (target rfl)]
  · rw [State.reserve, State.ring_setRing_of_ne _ _ _ _ e, State.setRing_comm e, State.reserve,
      State.ring_setRing_of_ne _ _ _ _ (Ne.symm e)]

/-- The mask after a ring is written is that of any ring in its place with the same state (R162). -/
theorem State.faultMask_setRing {k : Fin 4} {x y : Ring} (h : x.state = y.state) :
    (s.setRing k x).faultMask = (s.setRing k y).faultMask := by
  refine State.faultMask_congr fun j => ?_
  rw [State.ring_setRing, State.ring_setRing]
  split
  · exact h
  · rfl

/-- Settles O15: the ring is changed before the answer, whose mask so shows the change. -/
theorem defineRingPutsARingInService : Obligations.DefineRingPutsARingInService := by
  intro s h b i k hf grants flags reserved number notZero
  constructor
  · intro size base level some most holdoff empty
    have notUndefined : i = k → (s.ring k).state ≠ .undefined := by
      rintro rfl
      simp [grants.2.1]
    have check : (s.consumed.reserve i).check i (.defineRing h b) = none := by
      rw [State.check_defineRing grants
        (defineRingOk_of_size flags reserved number notZero size base level some most holdoff) number]
      refine refuseIf_of_false (State.ringBusy_reserve_of_size (s := s.consumed) ?_ empty) _
      exact fun e => size_ne_zero size (BitVec.eq_of_toNat_eq e)
    have does : (s.accepted.reserve i).defineRing (Fin.ofNat 4 b.number.toNat) b =
        (s.accepted.setRing k ((s.ring k).kept.define b.base b.size.toNat (Fin.ofNat 4 b.level.toNat)
          b.threshold.toNat b.holdoff.toNat)).reserve i := by
      rw [State.defineRing, if_neg (size_ne_zero size), Fin.ofNat_of_eq number]
      exact State.setRing_kept_reserve (s := s.accepted) notUndefined ..
    have done := State.submit_done hf (c := .defineRing h b) grants check
      (congrArg (fun x : State => x.stageCmdDone i .ok h.tag s.deviceTime s.admissionCounter.toNat) does)
    refine (congrArg Host.Outcome.next done).trans ?_
    have mask : (s.accepted.setRing k ((s.ring k).kept.define b.base b.size.toNat (Fin.ofNat 4 b.level.toNat)
        b.threshold.toNat b.holdoff.toNat)).faultMask = (s.setRing k { s.ring k with state := .active }).faultMask :=
      State.faultMask_setRing (s := s.accepted) rfl
    rw [State.answer, mask, Ring.kept_define]
    rfl
  · intro size other empty
    have check : (s.consumed.reserve i).check i (.defineRing h b) = none := by
      rw [State.check_defineRing grants (defineRingOk_of_zero flags reserved number notZero size) number, size]
      exact refuseIf_of_false (State.ringBusy_reserve_of_zero (s := s.consumed) other empty) _
    have does : (s.accepted.reserve i).defineRing (Fin.ofNat 4 b.number.toNat) b =
        (s.accepted.setRing k Ring.undefined).reserve i := by
      rw [State.defineRing, if_pos size, Fin.ofNat_of_eq number, State.reserve, State.setRing_comm other,
        State.reserve, State.ring_setRing_of_ne _ _ _ _ (Ne.symm other)]
    have done := State.submit_done hf (c := .defineRing h b) grants check
      (congrArg (fun x : State => x.stageCmdDone i .ok h.tag s.deviceTime s.admissionCounter.toNat) does)
    exact congrArg Host.Outcome.next done

/-- Settles O16: the busy ring fails the last check of the record. -/
theorem defineRingOfABusyRingIsRefused : Obligations.DefineRingOfABusyRingIsRefused := by
  intro s h b i k hf grants flags reserved number notZero fields busy
  have ok : defineRingOk h b = true := by
    obtain size | ⟨size, base, level, some, most, holdoff⟩ := fields
    · exact defineRingOk_of_zero flags reserved number notZero size
    · exact defineRingOk_of_size flags reserved number notZero size base level some most holdoff
  have busy' : (s.consumed.reserve i).ringBusy k i b.size.toNat = true := by
    refine State.ringBusy_reserve_of_busy (s := s.consumed) ?_
    obtain ⟨state, why⟩ | ⟨state, zero, why⟩ := busy
    · refine .inl ⟨state, ?_⟩
      exact why.imp_right (Or.imp_right fun ⟨zero, own⟩ => ⟨congrArg BitVec.toNat zero, own⟩)
    · exact .inr ⟨state, congrArg BitVec.toNat zero, why⟩
  have check : (s.consumed.reserve i).check i (.defineRing h b) = some .ringBusy := by
    rw [State.check_defineRing grants ok number, refuseIf_of_true busy']
  exact congrArg Host.Outcome.next
    (State.submit_refused hf (State.target_of_grants grants) grants.2.2 check)

end Sys2Proof.Machine
end

section
/-! PROOFS. The admission of trains and captures, CANCEL at a period's end, and FENCE (chapters 3 to 6): the checks
that such a record passes, and the state that its acceptance leaves. -/

namespace Sys2Proof.Machine

set_option Elab.async false

variable {s : State}

/-! START_TRAIN -/

theorem startOf_atTime {b : StartTrainBody} (kind : b.startKind = 0) : startOf b = .atTime := by
  simp [startOf, startKindOfCode, kind]

theorem startOf_now {b : StartTrainBody} (kind : b.startKind = 1) : startOf b = .now := by
  simp [startOf, startKindOfCode, kind]

theorem startOf_afterEdge {b : StartTrainBody} (kind : b.startKind = 2) (small : b.time.toNat < 2 ^ 32) :
    startOf b = .afterEdge b.reference b.edgeNumber.toNat b.time.toNat := by
  simp [startOf, startKindOfCode, kind, offsetBits_of_lt small]

theorem startOf_afterEnd {b : StartTrainBody} (kind : b.startKind = 3) (small : b.time.toNat < 2 ^ 32) :
    startOf b = .afterEnd b.reference b.time.toNat := by
  simp [startOf, startKindOfCode, kind, offsetBits_of_lt small]

theorem startFieldsOk_atTime {b : StartTrainBody} (kind : b.startKind = 0) (small : b.time.toNat < 2 ^ 48) :
    startFieldsOk b = true := by
  simp [startFieldsOk, startKindOfCode, kind, (upperClear_iff 48 b.time).mpr small]

theorem startFieldsOk_now {b : StartTrainBody} (kind : b.startKind = 1) (zero : b.time = 0) :
    startFieldsOk b = true := by
  simp [startFieldsOk, startKindOfCode, kind, zero]

theorem startFieldsOk_afterEdge {b : StartTrainBody} (kind : b.startKind = 2) (small : b.time.toNat < 2 ^ 32)
    (lead : 40 ≤ b.time.toNat) (edge : b.edgeNumber ≠ 0) (reference : b.reference ≠ 0) : startFieldsOk b = true := by
  have enough : Config.admissionLead ≤ offsetBits b.time := (offsetBits_of_lt small).symm ▸ lead
  have e : b.edgeNumber ≠ 0#8 := edge
  have r : b.reference ≠ 0#16 := reference
  simp [startFieldsOk, startKindOfCode, kind, (upperClear_iff 32 b.time).mpr small, enough, e, r]

theorem startFieldsOk_afterEnd {b : StartTrainBody} (kind : b.startKind = 3) (small : b.time.toNat < 2 ^ 32)
    (reference : b.reference ≠ 0) : startFieldsOk b = true := by
  have r : b.reference ≠ 0#16 := reference
  simp [startFieldsOk, startKindOfCode, kind, (upperClear_iff 32 b.time).mpr small, r]

/-- The flags that START_TRAIN defines are late-ok alone (R45, R202). -/
theorem fieldsOk_lateOk {h : Header} (flags : h.flags = 0 ∨ h.flags = 1) (reserved : h.reserved = 0) :
    Header.fieldsOk h 1 = true := by
  obtain flags | flags := flags <;> simp [Header.fieldsOk, Header.flagsWithin, flags, reserved]

/-- The fields of a START_TRAIN are in range (R32, R45). -/
theorem State.startTrainOk_of_ready {h : Header} {b : StartTrainBody} {l : Fin 16} {p : EndPolicy} {k : Fin 32}
    (ready : StartTrainReady s h b l p k) (start : startFieldsOk b = true) : s.startTrainOk h b = true := by
  obtain ⟨flags, reserved, tag, number, some, most, words, carrier, policy, -, -, -⟩ := ready
  have segments : (segmentWords b).all segmentOk = true := by
    simpa [segmentOk] using words
  have set : s.carrierOk h b = true := by
    obtain none | ⟨high, period⟩ := carrier
    · have none' : ((segmentWords b).any fun w => decide (segmentLevel w = .some .carrier)) = false := by
        simpa using none
      simp [State.carrierOk, outLine_of_toNat number, none']
    · simp [State.carrierOk, outLine_of_toNat number, Line.carrierSet, high, period]
  have named : h.tag ≠ 0#16 := tag
  have header : Header.fieldsOk h 1#8 = true := fieldsOk_lateOk flags reserved
  simp [State.startTrainOk, header, named, outLine_of_toNat number, some, most, segments,
    policy, start, set]

/-- The line of a START_TRAIN is free (R33). -/
theorem State.lineRefusal_of_free {l : Line} (drive : l.drive ≠ .off) (owner : l.owner = none)
    (start : StartCondition) : s.lineRefusal l start = none := by
  simp [State.lineRefusal, drive, owner]

/-- The train waits on the end of its line's owner, which has no successor yet (R33). -/
theorem State.lineRefusal_of_successor {l : Line} {o : Fin 32} {u : Train} {n : Nat} (drive : l.drive ≠ .off)
    (owner : l.owner = some o) (successor : l.successor = none) (live : s.train o = some u) :
    s.lineRefusal l (.afterEnd u.tag n) = none := by
  simp [State.lineRefusal, drive, owner, successor, live, StartCondition.onEnd]

/-- A START_TRAIN whose fields are in range on a line it can claim, with a reference that still stands, meets the
start-time check last (R47, R126). -/
theorem State.check_startTrain {h : Header} {b : StartTrainBody} {i : Fin 4} {l : Fin 16} {p : EndPolicy}
    {k : Fin 32} (grants : s.Grants h i) (ready : StartTrainReady s h b l p k) (start : startFieldsOk b = true)
    (line : s.lineRefusal (s.line l) (startOf b) = none) (reference : s.referenceRefusal (startOf b) = none)
    (trigger : s.triggerPassed (startOf b) = false) :
    (s.consumed.reserve i).check i (.startTrain h b) = refuseIf (s.startPast h b) .startPast := by
  have fields : (s.consumed.reserve i).startTrainOk h b = true := s.startTrainOk_of_ready ready start
  obtain ⟨-, -, -, number, -, -, -, -, -, fresh, free, -⟩ := ready
  have tag : (s.consumed.reserve i).lookup h.tag = none := State.lookup_eq_none fresh
  have slot : (s.consumed.reserve i).freeTrain = some k := free
  have line' : (s.consumed.reserve i).lineRefusal ((s.consumed.reserve i).line l) (startOf b) = none := line
  have reference' : (s.consumed.reserve i).referenceRefusal (startOf b) = none := reference
  have trigger' : (s.consumed.reserve i).triggerPassed (startOf b) = false := trigger
  have past : (s.consumed.reserve i).startPast h b = s.startPast h b := rfl
  simp only [State.check, refuseIf_not fields, State.ringRefusal_of_grants grants, tag, slot,
    outLine_of_toNat number, Option.bind_some, line', reference', refuseIf_of_false trigger', past]
  cases s.startPast h b <;> rfl

/-- The admitted train stands in its slot, on the list and in the tag map, and its line is claimed; a start time puts
its START into the calendar (R34, R48). -/
theorem State.admitTrain_of_time {h : Header} {b : StartTrainBody} {l : Fin 16} {k : Fin 32} {due : Time}
    {late : Bool} (i : Fin 4) (free : s.freeTrain = some k) (number : h.line.toNat = l.val)
    (time : s.startTimeOf b = some (due, late)) :
    s.admitTrain h b i =
      State.insert ((((s.setTrain k (some (s.newTrain h b l i))).join (.train k)).addTag h.tag (.train k)).setLine l
        ((s.line l).claim k)) (.train k) .start due := by
  simp only [State.admitTrain, free, outLine_of_toNat number, time]

/-- Without a start time it waits, with no entry (R101). -/
theorem State.admitTrain_of_no_time {h : Header} {b : StartTrainBody} {l : Fin 16} {k : Fin 32} (i : Fin 4)
    (free : s.freeTrain = some k) (number : h.line.toNat = l.val) (time : s.startTimeOf b = none) :
    s.admitTrain h b i =
      (((s.setTrain k (some (s.newTrain h b l i))).join (.train k)).addTag h.tag (.train k)).setLine l
        ((s.line l).claim k) := by
  simp only [State.admitTrain, free, outLine_of_toNat number, time]

/-- An admitted START_TRAIN with a start time, on a line whose claim is `line` (R34, R48). -/
theorem State.submit_startTrain_armed (hf : s.Fetching) {h : Header} {b : StartTrainBody} {i : Fin 4} {l : Fin 16}
    {p : EndPolicy} {k : Fin 32} {due : Time} {late : Bool} (grants : s.Grants h i)
    (ready : StartTrainReady s h b l p k)
    (check : (s.consumed.reserve i).check i (.startTrain h b) = none) (owner : (s.line l).owner = none)
    (time : s.startTimeOf b = some (due, late)) :
    s.submit (.startTrain h b) = ((admittedTrain s h i k
      (newTrainOf h b l p i .armed (startOf b) late (some due))
      { s.line l with owner := some k }).insert (.train k) .start due).issueRead := by
  obtain ⟨-, -, -, number, -, -, -, -, policy, -, free, -⟩ := ready
  have time' : (s.accepted.reserve i).startTimeOf b = some (due, late) := time
  have train : (s.accepted.reserve i).newTrain h b l i =
      newTrainOf h b l p i .armed (startOf b) late (some due) := by
    simp [State.newTrain, newTrainOf, time', policy, Header.lateOk]
  have claim : ((s.accepted.reserve i).line l).claim k = { s.line l with owner := some k } := if_pos owner
  rw [State.submit_accepted hf (c := .startTrain h b) grants check]
  change State.issueRead ((s.accepted.reserve i).admitTrain h b i) = _
  rw [State.admitTrain_of_time i (s := s.accepted.reserve i) free number time', train, claim]
  rfl

/-- An admitted START_TRAIN that waits (R34, R101). -/
theorem State.submit_startTrain_waiting (hf : s.Fetching) {h : Header} {b : StartTrainBody} {i : Fin 4} {l : Fin 16}
    {p : EndPolicy} {k : Fin 32} {line : Line} (grants : s.Grants h i)
    (ready : StartTrainReady s h b l p k)
    (check : (s.consumed.reserve i).check i (.startTrain h b) = none) (claim : (s.line l).claim k = line)
    (time : s.startTimeOf b = none) :
    s.submit (.startTrain h b) =
      (admittedTrain s h i k (newTrainOf h b l p i .waiting (startOf b) false none) line).issueRead := by
  obtain ⟨-, -, -, number, -, -, -, -, policy, -, free, -⟩ := ready
  have time' : (s.accepted.reserve i).startTimeOf b = none := time
  have train : (s.accepted.reserve i).newTrain h b l i =
      newTrainOf h b l p i .waiting (startOf b) false none := by
    simp [State.newTrain, newTrainOf, time', policy, Header.lateOk]
  rw [State.submit_accepted hf (c := .startTrain h b) grants check]
  change State.issueRead ((s.accepted.reserve i).admitTrain h b i) = _
  rw [State.admitTrain_of_no_time i (s := s.accepted.reserve i) free number time', train, ← claim]
  rfl

theorem State.startTimeOf_atTime {b : StartTrainBody} (kind : b.startKind = 0) :
    s.startTimeOf b = if leadOk s.deviceTime (b.time.setWidth 48) then some (b.time.setWidth 48, false)
      else some (s.deviceTime + 40, true) := by
  simp only [State.startTimeOf, startOf_atTime kind, timeBits_eq]
  rfl

theorem State.startTimeOf_now {b : StartTrainBody} (kind : b.startKind = 1) :
    s.startTimeOf b = some (s.deviceTime + 40, false) := by
  simp only [State.startTimeOf, startOf_now kind]
  rfl

theorem State.startPast_of_kind {h : Header} {b : StartTrainBody} (kind : startOf b ≠ .atTime) :
    s.startPast h b = false := by
  simp [State.startPast, kind]

/-- Settles O17: the start kinds AT, by its lead and late-ok, and NOW. -/
theorem startTrainIsArmed : Obligations.StartTrainIsArmed := by
  intro s h b i l p k hf grants ready owner
  have drive : (s.line l).drive ≠ .off := ready.2.2.2.2.2.2.2.2.2.2.2
  have check (kind : b.startKind = 0) (small : b.time.toNat < 2 ^ 48) :
      (s.consumed.reserve i).check i (.startTrain h b) = refuseIf (s.startPast h b) .startPast :=
    State.check_startTrain grants ready (startFieldsOk_atTime kind small)
      (State.lineRefusal_of_free drive owner _) (by rw [startOf_atTime kind]; rfl) (by rw [startOf_atTime kind]; rfl)
  have past (kind : b.startKind = 0) : s.startPast h b = (!leadOk s.deviceTime (b.time.setWidth 48) && !h.lateOk) := by
    simp [State.startPast, startOf_atTime kind, timeBits_eq]
  have noLead (n : (b.time.setWidth 48 - s.deviceTime).toNat < 40
      ∨ 2 ^ 47 ≤ (b.time.setWidth 48 - s.deviceTime).toNat) :
      leadOk s.deviceTime (b.time.setWidth 48) = false := by
    rw [← Bool.not_eq_true, leadOk_iff]
    omega
  refine ⟨?_, ?_, ?_, ?_⟩
  · intro kind small near far
    have lead := (leadOk_iff s.deviceTime (b.time.setWidth 48)).mpr ⟨near, far⟩
    have passes := (check kind small).trans (refuseIf_of_false (by simp [past kind, lead]) _)
    have time : s.startTimeOf b = some (b.time.setWidth 48, false) := by
      rw [State.startTimeOf_atTime kind, if_pos lead]
    refine congrArg Host.Outcome.next ?_
    rw [← startOf_atTime kind]
    exact State.submit_startTrain_armed hf grants ready passes owner time
  · intro kind small flags n
    have lateOk : h.lateOk = true := by simp [Header.lateOk, flags]
    have passes := (check kind small).trans (refuseIf_of_false (by simp [past kind, lateOk]) _)
    have time : s.startTimeOf b = some (s.deviceTime + 40, true) := by
      rw [State.startTimeOf_atTime kind, if_neg (by simp [noLead n])]
    refine congrArg Host.Outcome.next ?_
    rw [← startOf_atTime kind]
    exact State.submit_startTrain_armed hf grants ready passes owner time
  · intro kind small flags n
    have lateOk : h.lateOk = false := by simp [Header.lateOk, flags]
    have fails := (check kind small).trans (refuseIf_of_true (by simp [past kind, lateOk, noLead n]) _)
    exact congrArg Host.Outcome.next
      (State.submit_refused hf (State.target_of_grants grants) grants.2.2 fails)
  · intro kind zero
    have passes := (State.check_startTrain grants ready (startFieldsOk_now kind zero)
      (State.lineRefusal_of_free drive owner _) (by rw [startOf_now kind]; rfl) (by rw [startOf_now kind]; rfl)).trans
      (refuseIf_of_false (State.startPast_of_kind (by simp [startOf_now kind])) _)
    refine congrArg Host.Outcome.next ?_
    rw [← startOf_now kind]
    exact State.submit_startTrain_armed hf grants ready passes owner (State.startTimeOf_now kind)

/-- Settles O18: the two ways to wait on an end, and the wait on an edge. -/
theorem startTrainWaits : Obligations.StartTrainWaits := by
  intro s h b i l p k hf grants ready small reference
  have drive : (s.line l).drive ≠ .off := ready.2.2.2.2.2.2.2.2.2.2.2
  constructor
  · intro j kind named
    have start := startOf_afterEnd kind small
    have stands : s.referenceRefusal (startOf b) = none := by simp [State.referenceRefusal, start, named]
    have trigger : s.triggerPassed (startOf b) = false := by rw [start]; rfl
    have passes (line : s.lineRefusal (s.line l) (startOf b) = none) :=
      (State.check_startTrain grants ready (startFieldsOk_afterEnd kind small reference) line stands trigger).trans
        (refuseIf_of_false (State.startPast_of_kind (by simp [start])) _)
    have time : s.startTimeOf b = none := by simp [State.startTimeOf, start]
    rw [← start]
    constructor
    · intro owner
      exact congrArg Host.Outcome.next (State.submit_startTrain_waiting hf grants ready
        (passes (State.lineRefusal_of_free drive owner _)) (if_pos owner) time)
    · intro o u owner successor live tag
      have line : s.lineRefusal (s.line l) (startOf b) = none := by
        rw [start, ← tag]
        exact State.lineRefusal_of_successor drive owner successor live
      exact congrArg Host.Outcome.next (State.submit_startTrain_waiting hf grants ready (passes line)
        (if_neg (by simp [owner])) time)
  · intro j c kind named live lead edge limit open_ owner
    have start := startOf_afterEdge kind small
    have stands : s.referenceRefusal (startOf b) = none := by
      have within : ¬(c.edgeLimit ≠ 0 ∧ c.edgeLimit < b.edgeNumber.toNat) := by omega
      simp only [State.referenceRefusal, start, named, live, if_neg within]
    have trigger : s.triggerPassed (startOf b) = false := by
      simp [State.triggerPassed, start, named, live, open_]
    have passes := (State.check_startTrain grants ready (startFieldsOk_afterEdge kind small lead edge reference)
      (State.lineRefusal_of_free drive owner _) stands trigger).trans
        (refuseIf_of_false (State.startPast_of_kind (by simp [start])) _)
    rw [← start]
    exact congrArg Host.Outcome.next (State.submit_startTrain_waiting hf grants ready passes (if_pos owner)
      (by simp [State.startTimeOf, start]))

end Sys2Proof.Machine
end

section
/-! PROOFS. The admission of captures, CANCEL at a period's end, and FENCE (chapters 3, 4 and 6). -/

namespace Sys2Proof.Machine

set_option Elab.async false

variable {s : State}

/-! ARM_CAPTURE -/

/-- The fields of an ARM_CAPTURE are in range (R81, R82). -/
theorem State.armCaptureOk_of_fields {h : Header} {b : ArmCaptureBody} {l : Fin 8} {e : EdgeSelect} {m : ReportMode}
    (flags : h.flags = 0) (reserved : h.reserved = 0) (tag : h.tag ≠ 0) (number : h.line.toNat = l.val)
    (select : selectOfCode b.edgeSelect = some e) (mode : modeOfCode b.reportMode = some m) (ra : b.reservedA = 0)
    (rb : b.reservedB = 0) (opens : b.openTime.toNat < 2 ^ 48) (closes : b.closeTime.toNat < 2 ^ 48)
    (window : timeBits b.closeTime = 0
      ∨ isFuture (s.effectiveOpen (timeBits b.openTime)) (timeBits b.closeTime) = true) :
    s.armCaptureOk h b = true := by
  have named : h.tag ≠ 0#16 := tag
  have last : (decide (timeBits b.closeTime = 0)
      || isFuture (s.effectiveOpen (timeBits b.openTime)) (timeBits b.closeTime)) = true := by
    rw [Bool.or_eq_true, decide_eq_true_eq]
    exact window
  rw [State.armCaptureOk, last]
  simp [Header.fieldsOk_of_zero flags reserved, named, inLine_of_toNat number, select, mode, ra, rb,
    (upperClear_iff 48 b.openTime).mpr opens, (upperClear_iff 48 b.closeTime).mpr closes]

theorem State.check_armCapture {h : Header} {b : ArmCaptureBody} {i : Fin 4} {l : Fin 8} {k : Fin 16}
    (grants : s.Grants h i) (fields : s.armCaptureOk h b = true) (number : h.line.toNat = l.val)
    (fresh : ∀ x ∈ s.tagMap, x.1 ≠ h.tag) (free : s.freeCapture = some k) (enabled : (s.input l).enabled = true) :
    (s.consumed.reserve i).check i (.armCapture h b) = none := by
  have fields' : (s.consumed.reserve i).armCaptureOk h b = true := fields
  have tag : (s.consumed.reserve i).lookup h.tag = none := State.lookup_eq_none fresh
  have slot : (s.consumed.reserve i).freeCapture = some k := free
  have on : ((s.consumed.reserve i).input l).enabled = true := enabled
  simp only [State.check, refuseIf_not fields', State.ringRefusal_of_grants grants, tag, slot,
    inLine_of_toNat number, Option.any_some, on]
  rfl

/-- An admitted capture stands in its slot, on the list and in the tag map (R84). -/
def State.withCapture (s : State) (k : Fin 16) (c : Capture) : State :=
  ((s.setCapture k (some c)).join (.capture k)).addTag c.tag (.capture k)

theorem State.admitCapture_pending {h : Header} {b : ArmCaptureBody} {l : Fin 8} {k : Fin 16} (i : Fin 4)
    (free : s.freeCapture = some k) (number : h.line.toNat = l.val)
    (later : s.opensLater (timeBits b.openTime) = true) :
    s.admitCapture h b i = (s.withCapture k (s.newCapture h b l i)).insert (.capture k) .openWindow
      (timeBits b.openTime) := by
  have state : (s.newCapture h b l i).state = .pending := by simp [State.newCapture, later]
  have time : (s.newCapture h b l i).effectiveOpen = timeBits b.openTime := by
    simp [State.newCapture, State.effectiveOpen, later]
  simp only [State.admitCapture, free, inLine_of_toNat number, state, time]
  rfl

theorem State.admitCapture_opened {h : Header} {b : ArmCaptureBody} {l : Fin 8} {k : Fin 16} (i : Fin 4)
    (free : s.freeCapture = some k) (number : h.line.toNat = l.val)
    (now : s.opensLater (timeBits b.openTime) = false) :
    s.admitCapture h b i = (s.withCapture k (s.newCapture h b l i)).insertClose k (s.newCapture h b l i) := by
  have state : (s.newCapture h b l i).state = .opened := by simp [State.newCapture, now]
  simp only [State.admitCapture, free, inLine_of_toNat number, state]
  rfl

/-- Settles O19: PENDING or OPEN by whether the open time lies ahead, and then by the close time. -/
theorem armCaptureOpensNowOrLater : Obligations.ArmCaptureOpensNowOrLater := by
  intro s h b i l k e m hf grants flags reserved tag number select mode ra rb small small' fresh free enabled
    opens closes later base
  have opensEq : timeBits b.openTime = opens := timeBits_eq _
  have closesEq : timeBits b.closeTime = closes := timeBits_eq _
  have laterEq : s.opensLater (timeBits b.openTime) = later := by rw [opensEq]; rfl
  have laterEq' : (s.accepted.reserve i).opensLater (timeBits b.openTime) = later := laterEq
  have built : (s.accepted.reserve i).withCapture k ((s.accepted.reserve i).newCapture h b l i) = base := by
    have ahead : (s.accepted.reserve i).opensLater opens = later := rfl
    have effective : (s.accepted.reserve i).effectiveOpen opens = if later = true then opens else s.deviceTime := rfl
    have late : (decide (opens ≠ 0) && !later) = (decide (opens ≠ 0) && !isFuture s.deviceTime opens) := by
      simp only [later]
      cases decide (opens ≠ 0) <;> cases isFuture s.deviceTime opens <;> rfl
    simp only [State.withCapture, State.newCapture, opensEq, closesEq, ahead, effective, select, mode, late,
      Option.getD_some]
    rfl
  have accept (window : closes = 0
      ∨ isFuture (if later = true then opens else s.deviceTime) closes = true) :
      exec (.armCapture h b) s = .next ((s.accepted.reserve i).admitCapture h b i).issueRead := by
    refine congrArg Host.Outcome.next (State.submit_accepted hf (c := .armCapture h b) grants
      (State.check_armCapture grants (State.armCaptureOk_of_fields flags reserved tag number select mode ra rb small
        small' ?_) number fresh free enabled))
    rw [State.effectiveOpen, laterEq, opensEq, closesEq]
    exact window
  have closeTime : ((s.accepted.reserve i).newCapture h b l i).closeTime = closes := closesEq
  refine ⟨?_, ?_, ?_⟩
  · intro ahead window
    rw [accept (by rwa [if_pos ahead]),
      State.admitCapture_pending (s := s.accepted.reserve i) i free number (laterEq'.trans ahead), built, opensEq]
  · intro now none
    rw [accept (.inl none),
      State.admitCapture_opened (s := s.accepted.reserve i) i free number (laterEq'.trans now),
      State.insertClose_of_zero _ _ (closeTime.trans none), built]
  · intro now given window
    rw [accept (.inr (by rwa [if_neg (by simp [now])])),
      State.admitCapture_opened (s := s.accepted.reserve i) i free number (laterEq'.trans now),
      State.insertClose_of_ne_zero _ _ (closeTime ▸ given), built, closeTime]

/-! CANCEL -/

/-- The fields of a CANCEL are in range (R135). -/
theorem cancelOk_of_flags {h : Header} (flags : h.flags = 0 ∨ h.flags = 2 ∨ h.flags = 4 ∨ h.flags = 6)
    (reserved : h.reserved = 0) (tag : h.tag ≠ 0) : cancelOk h = true := by
  have named : h.tag ≠ 0#16 := tag
  obtain flags | flags | flags | flags := flags <;>
    simp [cancelOk, Header.fieldsOk, Header.flagsWithin, Header.cancelMode, flags, reserved, named]

theorem State.check_cancel {h : Header} {i : Fin 4} {w : Work} (grants : s.Grants h i) (fields : cancelOk h = true)
    (named : s.lookup h.tag = some w) : (s.consumed.reserve i).check i (.cancel h) = none := by
  have named' : (s.consumed.reserve i).lookup h.tag = some w := named
  simp only [State.check, refuseIf_not fields, State.ringRefusal_of_grants grants, named']
  rfl

/-- An accepted CANCEL, answered after what it does to its work, when that keeps clear of the place of the answer. -/
theorem State.submit_cancel (hf : s.Fetching) {h : Header} {i : Fin 4} {w : Work} (grants : s.Grants h i)
    (flags : h.flags = 0 ∨ h.flags = 2 ∨ h.flags = 4 ∨ h.flags = 6) (reserved : h.reserved = 0) (tag : h.tag ≠ 0)
    (named : s.lookup h.tag = some w) {t : State} (does : (s.accepted.reserve i).doCancel h = t.reserve i) :
    s.submit (.cancel h) = (t.stageFree i
      { t.answer .ok h.tag s.admissionCounter.toNat with time2 := s.deviceTime }).issueRead :=
  State.submit_done hf (c := .cancel h) grants
    (State.check_cancel grants (cancelOk_of_flags flags reserved tag) named)
    (congrArg (fun x : State => x.stageCmdDone i .ok h.tag s.deviceTime s.admissionCounter.toNat) does)

/-- The mode and the cascade flag of a CANCEL (R202). -/
theorem Header.cancelMode_of_atPeriodEnd {h : Header} (flags : h.flags = 4 ∨ h.flags = 6) : h.cancelMode ≠ 0 := by
  obtain flags | flags := flags <;> simp [Header.cancelMode, flags]

theorem Header.cancelMode_of_immediate {h : Header} (flags : h.flags = 0 ∨ h.flags = 2) : h.cancelMode = 0 := by
  obtain flags | flags := flags <;> simp [Header.cancelMode, flags]

/-- Settles O20: the train's own state decides, and the answer keeps clear of it. -/
theorem cancelAtPeriodEndOnlyStops : Obligations.CancelAtPeriodEndOnlyStops := by
  intro s h i k t hf grants flags reserved tag named live
  have all : h.flags = 0 ∨ h.flags = 2 ∨ h.flags = 4 ∨ h.flags = 6 := .inr (.inr flags)
  have cancels : (s.accepted.reserve i).doCancel h = (s.accepted.reserve i).cancelAtPeriodEnd k h.cascade := by
    have named' : (s.accepted.reserve i).lookup h.tag = some (.train k) := named
    simp only [State.doCancel, named', if_neg (Header.cancelMode_of_atPeriodEnd flags)]
  have live' : (s.accepted.reserve i).train k = some t := live
  constructor
  · intro running
    have cascade : (if h.cascade = true then StopKind.cascade else .plain) =
        if h.flags = 0x06 then StopKind.cascade else .plain := by
      obtain flags | flags := flags <;> simp [Header.cascade, flags]
    have does : (s.accepted.reserve i).doCancel h = (s.accepted.setTrain k (some
        { t with state := .stopping, stopKind := if h.flags = 0x06 then .cascade else .plain })).reserve i := by
      rw [cancels]
      simp only [State.cancelAtPeriodEnd, live', running, cascade]
      rfl
    exact congrArg Host.Outcome.next (State.submit_cancel hf grants all reserved tag named does)
  · intro stopping
    have does : (s.accepted.reserve i).doCancel h = s.accepted.reserve i := by
      rw [cancels]
      simp only [State.cancelAtPeriodEnd, live', stopping]
    exact congrArg Host.Outcome.next (State.submit_cancel hf grants all reserved tag named does)

/-! FENCE -/

theorem State.check_fence {h : Header} {timeout : BitVec 64} {i : Fin 4} (grants : s.Grants h i) (flags : h.flags = 0)
    (reserved : h.reserved = 0) (some : timeout.toNat ≠ 0) (small : timeout.toNat < 2 ^ 32) :
    (s.consumed.reserve i).check i (.fence h timeout) = none := by
  have fields : fenceOk h timeout = true := by
    simp [fenceOk, Header.fieldsOk_of_zero flags reserved, (upperClear_iff 32 timeout).mpr small,
      offsetBits_of_lt small, some]
  simp only [State.check, refuseIf_not fields, State.ringRefusal_of_grants grants, firstRefusal]

/-- No read is issued while the unit is not IDLE (R117). -/
theorem State.issueRead_of_ne_idle (h : s.fetch ≠ .idle) : s.issueRead = s := by
  obtain ⟨⟨-, idle, -⟩, -⟩ | ⟨-, e⟩ := s.issueRead_cases
  · exact absurd idle h
  · exact e

/-- Settles O24: the count of the tag map decides. -/
theorem fenceEndsOrHoldsTheStream : Obligations.FenceEndsOrHoldsTheStream := by
  intro s h timeout i hf grants flags reserved some small
  have accept : exec (.fence h timeout) s = .next ((s.accepted.reserve i).doFence h timeout i).issueRead :=
    congrArg Host.Outcome.next (State.submit_accepted hf (c := .fence h timeout) grants
      (State.check_fence grants flags reserved some small))
  rw [accept]
  constructor
  · intro none
    have zero : (s.accepted.reserve i).tagMap.length = 0 := congrArg List.length none
    rw [State.doFence]
    simp only [if_pos zero]
    rw [State.stageFinal_reserve]
    rfl
  · intro works
    have more : (s.accepted.reserve i).tagMap.length ≠ 0 := fun e => works (List.length_eq_zero_iff.mp e)
    rw [State.doFence]
    simp only [if_neg more, offsetBits_of_lt small]
    rw [State.issueRead_of_ne_idle (by simp)]
    rfl

end Sys2Proof.Machine
end

section
/-! PROOFS. The control block (chapter 9): enable, quiesce of an idle part, resets, and the halt with the accesses
that lead to it. -/

namespace Sys2Proof.Machine

set_option Elab.async false

variable {s : State}

/-- Settles O1. -/
theorem stepTakesTheFrontCommand : Obligations.StepTakesTheFrontCommand := by
  intro s c rest front
  simp only [step, front]

/-! The halt -/

theorem HostEvent.ofDiscarded_eq (e : HostEvent) : e.ofDiscarded = ofDiscardedRead e := by cases e <;> rfl

/-- What a discard of the outstanding read, if there is one, leaves (R120). -/
theorem State.discardRead_eq (s : State) :
    s.discardRead =
      { s with
        fetch := if s.fetch.outstanding.isSome then .idle else s.fetch
        discardedReads := if s.fetch.outstanding.isSome then s.discardedReads + 1 else s.discardedReads
        heldEvents := if s.fetch.outstanding.isSome then s.heldEvents.map ofDiscardedRead else s.heldEvents } := by
  have renamed : s.heldEvents.map HostEvent.ofDiscarded = s.heldEvents.map ofDiscardedRead :=
    List.map_congr_left fun e _ => e.ofDiscarded_eq
  obtain ⟨r, reads, e⟩ | ⟨none, e⟩ := s.discardRead_cases
  · have some : s.fetch.outstanding.isSome = true := Fetch.isSome_outstanding.mpr ⟨r, reads⟩
    rw [e, renamed, if_pos some, if_pos some, if_pos some]
  · have some : ¬s.fetch.outstanding.isSome = true := fun h => by
      obtain ⟨r, reads⟩ := Fetch.isSome_outstanding.mp h
      exact none r reads
    rw [e, if_neg some, if_neg some, if_neg some]

theorem Line.halt_eq (l : Line) : l.halt = haltedLine l := by
  obtain ⟨drive, idle, faultLevel, highWidth, period, present, owner, successor, modulator⟩ := l
  cases faultLevel <;> cases present <;> rfl

/-- The halt, field by field (R194). -/
theorem State.halt_eq (s : State) (c : FatalCause) : s.halt c = haltedWith s c.cause := by
  simp only [State.halt, State.dropAll, State.onLines, State.line, State.discardRead_eq, Line.halt_eq]
  rfl

/-- A part in which nothing waits: the discard renames no held event. -/
theorem State.discardRead_of_listening (h : s.Listening) :
    s.discardRead =
      { s with
        fetch := if s.fetch.outstanding.isSome then .idle else s.fetch
        discardedReads := if s.fetch.outstanding.isSome then s.discardedReads + 1 else s.discardedReads } := by
  obtain ⟨-, -, none⟩ := h
  rw [State.discardRead_eq]
  simp only [none, List.map_nil, ite_self]

/-! SQTAIL -/

/-- Settles O33: the write is taken at once, and the device state decides. -/
theorem sqTailWriteByDeviceState : Obligations.SqTailWriteByDeviceState := by
  intro s v listens
  have taken : exec (.sqtailWrite v) s = .next (s.writeSqTail v) :=
    congrArg Host.Outcome.next (State.hostEvent_of_listening listens _)
  rw [taken]
  refine ⟨?_, ?_, ?_, ?_⟩
  · intro running below
    simp only [State.writeSqTail, running, if_pos below]
  · intro quiescing below
    simp only [State.writeSqTail, quiescing, if_pos below]
  · intro serves above
    have notBelow : ¬v.toNat < s.sqSize.toNat := Nat.not_lt.mpr above
    obtain device | device := serves <;>
      simp only [State.writeSqTail, device, if_neg notBelow, State.halt_eq] <;> rfl
  · rintro (device | device) <;> simp only [State.writeSqTail, device]

/-! Enable -/

/-- The size that an exponent gives is a legal ring size from 2^4 to 2^12 (R186). -/
theorem cfgSize_mem (w : Word) :
    cfgSize w ∈ crSizes ↔ 4 ≤ (w.extractLsb' 0 4).toNat ∧ (w.extractLsb' 0 4).toNat ≤ 12 := by
  rw [cfgSize]
  have small : (w.extractLsb' 0 4).toNat < 16 := (w.extractLsb' 0 4).isLt
  generalize (w.extractLsb' 0 4).toNat = n at small ⊢
  interval_cases n <;> decide

theorem State.configValid_iff : s.configValid = true ↔ ValidConfiguration s := by
  simp only [State.configValid, cfgReservedClear, areaFits, areasApart, Bool.and_eq_true, Bool.or_eq_true,
    Bool.not_eq_true', decide_eq_true_eq, cfgSize_mem]
  simp only [cfgThreshold, cfgSize, and_assoc]
  exact Iff.rfl

/-- Settles O28: the configuration test, condition by condition. -/
theorem enableTestsTheConfiguration : Obligations.EnableTestsTheConfiguration := by
  intro s listens
  have taken : exec .enable s = .next (s.writeCtrl true false) :=
    congrArg Host.Outcome.next (State.hostEvent_of_listening listens _)
  rw [taken]
  refine ⟨?_, ?_, ?_⟩
  · intro off valid
    simp only [State.writeCtrl, off, State.tryEnable, State.configValid_iff.mpr valid]
    rfl
  · intro off invalid
    simp [State.writeCtrl, off, State.tryEnable, mt State.configValid_iff.mp invalid]
  · intro on
    cases device : s.device with
    | off => exact absurd device on
    | running => simp [State.writeCtrl, device]
    | quiescing => simp [State.writeCtrl, device]
    | halted => simp [State.writeCtrl, device]

/-! Quiesce -/

theorem State.stagedTotal_eq (s : State) : s.stagedTotal =
    (s.ring 0).staged.length + (s.ring 1).staged.length + (s.ring 2).staged.length + (s.ring 3).staged.length := by
  simp [State.stagedTotal, List.finRange_succ, ← Nat.add_assoc]

/-- Nothing is staged on any ring exactly when every queue is empty (R191). -/
theorem State.stagedTotal_eq_zero : s.stagedTotal = 0 ↔ ∀ i, (s.ring i).staged = [] := by
  simp [State.stagedTotal, List.sum_eq_zero_iff]

theorem exec_quiesce_of_running (listens : s.Listening) (running : s.device = .running) :
    exec .quiesce s = .next s.beginQuiesce := by
  refine (congrArg Host.Outcome.next (State.hostEvent_of_listening listens _)).trans ?_
  simp [State.takeHost, State.writeCtrl, running]

/-- The state that the sweep starts from in a part in which nothing waits (R142, R189). -/
def State.sweeping (s : State) : State := { s.discardRead with device := .quiescing, quiesceElapsed := 0 }

/-- With no work there is no turn to the sweep (R18). -/
theorem State.beginQuiesce_of_no_work (calendar : s.calendar = []) (admission : s.admission = []) :
    s.beginQuiesce = s.sweeping.testDrain := by
  have order : s.sweeping.sweepOrder = [] := by
    simp [State.sweeping, State.discardRead_eq, State.sweepOrder, calendar, admission]
  exact congrArg (fun l => (l.foldl State.abort s.sweeping).testDrain) order

/-- Settles O30: the sweep is empty and the drain is complete at once. -/
theorem quiesceOfAnIdlePartIsComplete : Obligations.QuiesceOfAnIdlePartIsComplete := by
  intro s listens
  constructor
  · intro running calendar admission staged waiting held
    have nothing : s.sweeping.stagedTotal = 0 := by
      rw [State.sweeping, State.discardRead_eq]
      exact State.stagedTotal_eq_zero.mpr staged
    have none : s.sweeping.holdsRecord = false := by
      rw [State.sweeping, State.discardRead_eq]
      cases f : s.fetch with
      | stalled c t => simp [State.holdsRecord, f] at held
      | idle => rfl
      | reading r => rfl
      | fenced f => rfl
    rw [exec_quiesce_of_running listens running, State.beginQuiesce_of_no_work calendar admission, State.testDrain,
      if_pos ⟨rfl, by rw [State.drained, nothing, none]; rfl⟩, State.sweeping, State.discardRead_of_listening listens]
    rfl
  · intro idle
    refine (congrArg Host.Outcome.next (State.hostEvent_of_listening listens _)).trans ?_
    cases device : s.device with
    | running => exact absurd device idle
    | off => simp [State.takeHost, State.writeCtrl, device]
    | quiescing => simp [State.takeHost, State.writeCtrl, device]
    | halted => simp [State.takeHost, State.writeCtrl, device]

/-! Resets -/

/-- Settles O31: every block at its reset value, and the discarded read counted. -/
theorem softResetRestoresResetValues : Obligations.SoftResetRestoresResetValues := by
  intro s enableBit listens
  refine (congrArg Host.Outcome.next (State.hostEvent_of_listening listens _)).trans ?_
  simp only [State.takeHost, State.writeCtrl, if_true, State.resetBlocks, State.discardRead_of_listening listens]
  rfl

/-- Settles O32: the soft-reset state with the link reset, held until the release. -/
theorem hardResetsHoldThePart : Obligations.HardResetsHoldThePart := by
  intro s held
  have reset : s.hardReset = held := by
    simp only [State.hardReset, State.resetBlocks, State.discardRead_eq, State.resetLink]
    rfl
  refine ⟨congrArg Host.Outcome.next reset, congrArg Host.Outcome.next reset, ?_, ?_⟩
  · intro isHeld
    exact congrArg Host.Outcome.next (if_pos isHeld)
  · intro free
    exact congrArg Host.Outcome.next (if_neg (by simp [free]))

/-! Failed reads -/

/-- Settles O41: both failures halt, and an answer of a discarded read only ends it. -/
theorem failedReadHaltsTheDevice : Obligations.FailedReadHaltsTheDevice := by
  intro s e
  refine ⟨?_, ?_, ?_, ?_⟩
  · intro listens running reads
    obtain ⟨r, reading⟩ := Fetch.isSome_outstanding.mp reads
    refine (congrArg Host.Outcome.next (State.hostEvent_of_listening listens _)).trans ?_
    simp only [State.takeHost, State.readFailed, reading, if_pos running, State.halt_eq]
    rfl
  · intro listens
    exact congrArg Host.Outcome.next (State.hostEvent_of_listening listens _)
  · intro listens data
    exact congrArg Host.Outcome.next (State.hostEvent_of_listening listens _)
  · intro r reading running
    constructor
    · intro long
      have overdue : s.readOverdue = true := by
        simp [State.readOverdue, reading, running, Config.readLimit, long]
      refine (congrArg Host.Outcome.next (if_pos overdue)).trans ?_
      rw [State.halt_eq]
      rfl
    · intro within
      have notOverdue : ¬s.readOverdue = true := by
        have : ¬Config.readLimit ≤ r.elapsed := Nat.not_le.mpr within
        simp [State.readOverdue, reading, running, this]
      exact congrArg Host.Outcome.next (if_neg notOverdue)

end Sys2Proof.Machine
end

section
/-! PROOFS. The register window (chapter 10): reads of the registers, and the capture of device time. -/

namespace Sys2Proof.Machine

set_option Elab.async false

variable {s : State}

/-- The high part of a word put together from two (R201). -/
theorem extract_top {a b : Nat} (hi : BitVec a) (lo : BitVec b) : (hi ++ lo).extractLsb' b a = hi := by
  apply BitVec.eq_of_getLsbD_eq
  intro i inside
  have above : ¬b + i < b := by omega
  simp only [BitVec.getLsbD_extractLsb', BitVec.getLsbD_append, if_neg above, inside, decide_true, Bool.true_and,
    Nat.add_sub_cancel_left]

/-- A part that is wholly inside the low part (R201). -/
theorem extract_within {a b n len : Nat} (hi : BitVec a) (lo : BitVec b) (h : n + len ≤ b) :
    (hi ++ lo).extractLsb' n len = lo.extractLsb' n len := by
  apply BitVec.eq_of_getLsbD_eq
  intro i hi'
  have below : n + i < b := by omega
  simp only [BitVec.getLsbD_extractLsb', BitVec.getLsbD_append, if_pos below]

/-- A CRHEAD word shows the host head, the write index and the ring's state, and zeros between (R199, R201). -/
theorem Ring.headWord_fields (r : Ring) :
    r.headWord.extractLsb' 0 12 = BitVec.ofNat 12 r.hostHead ∧ r.headWord.extractLsb' 12 4 = 0#4
      ∧ r.headWord.extractLsb' 16 12 = BitVec.ofNat 12 r.writeIndex ∧ r.headWord.extractLsb' 28 2 = 0#2
      ∧ r.headWord.extractLsb' 30 2 = r.state.code := by
  unfold Ring.headWord
  simp (disch := omega) only [extract_within, extract_top, BitVec.extractLsb'_eq_self, and_self]

/-- STAT shows the device state, the last cause and the two fields of a quiesce, and zeros between (R199, R201). -/
theorem State.statWord_fields (s : State) :
    s.statWord.extractLsb' 0 2 = s.device.code ∧ s.statWord.extractLsb' 4 4 = s.lastCause.code
      ∧ s.statWord.getLsbD 8 = s.commandDropped ∧ s.statWord.extractLsb' 16 9 = BitVec.ofNat 9 s.discardedCount
      ∧ s.statWord.extractLsb' 2 2 = 0#2 ∧ s.statWord.extractLsb' 9 7 = 0#7 ∧ s.statWord.extractLsb' 25 7 = 0#7 := by
  have dropped : s.statWord.getLsbD 8 = s.commandDropped := by
    have field : s.statWord.extractLsb' 8 1 = BitVec.ofBool s.commandDropped := by
      simp (disch := omega) only [State.statWord, bit, extract_within, extract_top]
    simpa using congrArg (fun x => x.getLsbD 0) field
  refine ⟨?_, ?_, dropped, ?_, ?_, ?_, ?_⟩ <;>
    simp (disch := omega) only [State.statWord, extract_within, extract_top, BitVec.extractLsb'_eq_self]

/-- The offsets that the window's table lists (R199). -/
theorem State.readRegister_of_not_mem {o : Nat}
    (h : o ∉ [0x00, 0x04, 0x08, 0x0C, 0x10, 0x18, 0x1C, 0x20, 0x24, 0x28, 0x2C, 0x30, 0x40, 0x44, 0x48, 0x4C]) :
    s.readRegister o = 0 := by
  simp only [List.mem_cons, List.not_mem_nil, or_false, not_or] at h
  unfold State.readRegister
  split
  case h_17 => rfl
  all_goals omega

theorem State.readRegister_crHead (i : Fin 4) : s.readRegister (0x40 + 4 * i.val) = (s.ring i).headWord := by
  match i with
  | 0 => rfl
  | 1 => rfl
  | 2 => rfl
  | 3 => rfl

/-- Settles O37: register by register; the fields of STAT and CRHEAD lie where their words put them. -/
theorem statusRegistersReadTheState : Obligations.StatusRegistersReadTheState := by
  intro s small
  obtain ⟨device, cause, dropped, count, low, middle, high⟩ := s.statWord_fields
  have count' : ((s.readRegister 0x08).extractLsb' 16 9).toNat = s.discardedCount := by
    refine (congrArg BitVec.toNat count).trans ?_
    rw [BitVec.toNat_ofNat]
    exact Nat.mod_eq_of_lt small
  have ctrl : s.readRegister 0x04 = (if s.device = .running then 1#32 else 0#32) := by
    change s.ctrlWord = _
    cases d : s.device <;> simp [State.ctrlWord, bit, d]
  refine ⟨device, cause, dropped, count', low, middle, high, ctrl, rfl, rfl, rfl, rfl, rfl, rfl, rfl, rfl, rfl, ?_,
    fun o => State.readRegister_of_not_mem, fun o => ⟨rfl, rfl, fun a b _ => rfl⟩⟩
  intro i
  rw [State.readRegister_crHead]
  exact (s.ring i).headWord_fields

/-! Reads of TIME_LO -/

/-- The low bytes of a field are those of its low part. -/
theorem byteOf_extract {w : Nat} (x : BitVec w) (n i : Nat) (h : 8 * (i + 1) ≤ n) :
    byteOf (x.extractLsb' 0 n) i = byteOf x i := by
  apply BitVec.eq_of_getLsbD_eq
  intro k hk
  have inside : 8 * i + k < n := by omega
  simp [byteOf, inside]

theorem bytesOf_extract {w : Nat} (x : BitVec w) (n m : Nat) (h : 8 * m ≤ n) :
    bytesOf (x.extractLsb' 0 n) m = bytesOf x m := by
  refine List.map_congr_left fun i hi => byteOf_extract x n i ?_
  have := List.mem_range.mp hi
  omega

/-- TIME_HI holds the two high bytes of the capture, and zeros (R199). -/
theorem bytesOf_timeHi (t : Time) :
    bytesOf (t.extractLsb' 0 32) 4 ++ bytesOf ((t.extractLsb' 32 16).setWidth 32) 4 = bytesOf t 6 ++ [0, 0] := by
  rw [bytesOf_extract t 32 4 (by omega)]
  have high : bytesOf ((t.extractLsb' 32 16).setWidth 32) 4 = [byteOf t 4, byteOf t 5, 0, 0] := by
    rw [bytesOf_four]
    refine List.cons_eq_cons.mpr ⟨?_, List.cons_eq_cons.mpr ⟨?_, List.cons_eq_cons.mpr ⟨?_,
      List.cons_eq_cons.mpr ⟨?_, rfl⟩⟩⟩⟩
    all_goals
      apply BitVec.eq_of_getLsbD_eq
      intro i hi
      interval_cases i <;> simp [byteOf]
  rw [high]
  rfl

/-- Settles O36: the capture is taken, and the bytes are those of device time at that tick. -/
theorem timeLoReadTakesTheCapture : Obligations.TimeLoReadTakesTheCapture := by
  intro s awake
  have taken (a : TimeRead) : exec (.timeLoRead a) s = .next (s.readTime a) :=
    congrArg Host.Outcome.next (if_neg (by simp [awake]))
  have low : bytesOf (s.deviceTime.extractLsb' 0 32) 4 = bytesOf s.deviceTime 4 := bytesOf_extract _ 32 4 (by omega)
  refine ⟨(taken _).trans ?_, (taken _).trans ?_, (taken _).trans ?_, fun a b _ => (taken _).trans ?_⟩
  · rw [← low]
    rfl
  · rw [← bytesOf_timeHi]
    rfl
  · rw [← low]
    rfl
  · rw [← low]
    rfl

end Sys2Proof.Machine
end

section
/-! PROOFS. The arbiter and the interrupt messages (chapter 8): which ring is served, where a message goes, the masks
and bus mastering, the holdoff timer, and the closing messages of a return to OFF. -/

namespace Sys2Proof.Machine

set_option Elab.async false

variable {s : State}

/-! The choice of a ring -/

/-- The arbiter's choice after one more ring is looked at (R179). -/
def State.better (s : State) (best : Option (Fin 4)) (i : Fin 4) : Option (Fin 4) :=
  if (s.ring i).hasCandidate then
    match best with
    | none => some i
    | some j => if (s.ring j).level < (s.ring i).level then some i else some j
  else best

/-- `best` is the choice among the rings of a list: none when none has a candidate, and else one with a candidate of
the highest level, the first of that level (R179). -/
def State.BestOf (s : State) (l : List (Fin 4)) : Option (Fin 4) → Prop
  | none => ∀ j ∈ l, (s.ring j).hasCandidate = false
  | some i => (s.ring i).hasCandidate = true ∧ i ∈ l ∧ ∀ j ∈ l, (s.ring j).hasCandidate = true →
      (s.ring j).level < (s.ring i).level ∨ (s.ring j).level = (s.ring i).level ∧ i ≤ j

/-- One more ring, behind all those looked at, keeps the choice the best. -/
theorem State.better_bestOf {l : List (Fin 4)} {best : Option (Fin 4)} {i : Fin 4} (h : s.BestOf l best)
    (last : ∀ j ∈ l, j ≤ i) : s.BestOf (l ++ [i]) (s.better best i) := by
  by_cases candidate : (s.ring i).hasCandidate = true
  · cases best with
    | none =>
      simp only [State.better, candidate, if_true]
      refine ⟨candidate, by simp, fun j hj has => ?_⟩
      rw [List.mem_append, List.mem_singleton] at hj
      obtain old | rfl := hj
      · simp [h j old] at has
      · exact .inr ⟨rfl, le_refl j⟩
    | some k =>
      obtain ⟨has, mem, most⟩ := h
      by_cases higher : (s.ring k).level < (s.ring i).level
      · simp only [State.better, candidate, if_true, if_pos higher]
        refine ⟨candidate, by simp, fun j hj hasJ => ?_⟩
        rw [List.mem_append, List.mem_singleton] at hj
        obtain old | rfl := hj
        · obtain lower | ⟨equal, -⟩ := most j old hasJ
          · exact .inl (lower.trans higher)
          · exact .inl (equal ▸ higher)
        · exact .inr ⟨rfl, le_refl j⟩
      · simp only [State.better, candidate, if_true, if_neg higher]
        refine ⟨has, by simp [mem], fun j hj hasJ => ?_⟩
        rw [List.mem_append, List.mem_singleton] at hj
        obtain old | rfl := hj
        · exact most j old hasJ
        · obtain lower | equal := (not_lt.mp higher).lt_or_eq
          · exact .inl lower
          · exact .inr ⟨equal, last k mem⟩
  · have none : (s.ring i).hasCandidate = false := by simpa using candidate
    simp only [State.better, if_neg candidate]
    cases best with
    | none =>
      intro j hj
      rw [List.mem_append, List.mem_singleton] at hj
      obtain old | rfl := hj
      · exact h j old
      · exact none
    | some k =>
      obtain ⟨has, mem, most⟩ := h
      refine ⟨has, by simp [mem], fun j hj hasJ => ?_⟩
      rw [List.mem_append, List.mem_singleton] at hj
      obtain old | rfl := hj
      · exact most j old hasJ
      · simp [none] at hasJ

theorem State.servedRing_bestOf : s.BestOf (List.finRange 4) s.servedRing := by
  have start : s.BestOf [] none := by simp [State.BestOf]
  have choice := State.better_bestOf (i := 3) (State.better_bestOf (i := 2) (State.better_bestOf (i := 1)
    (State.better_bestOf (i := 0) start (by simp)) (by simp)) (by decide)) (by decide)
  exact choice

theorem Ring.hasCandidate_iff (r : Ring) : r.hasCandidate = true ↔ r.state = .active
    ∧ (r.awaiting = false ∧ (r.threshold ≤ r.unnotified ∨ r.timer = .expired ∧ 1 ≤ r.unnotified)
      ∨ r.staged ≠ [] ∧ (r.writeIndex + 1) % r.size ≠ r.hostHead) := by
  simp only [Ring.hasCandidate, Ring.messageDue, Ring.offersRecord, Ring.full, Bool.or_eq_true, Bool.and_eq_true,
    decide_eq_true_eq, Bool.not_eq_true', decide_eq_false_iff_not, and_assoc, ← and_or_left]

/-- Settles O44: the fold over the four rings keeps the best choice so far. -/
theorem arbiterServesTheHighestLevel : Obligations.ArbiterServesTheHighestLevel := by
  intro s
  have best := s.servedRing_bestOf
  refine ⟨fun i served => ?_, fun none j => ?_, fun j => (s.ring j).hasCandidate_iff⟩
  · rw [served] at best
    exact ⟨best.1, fun j has => best.2.2 j (List.mem_finRange j) has⟩
  · rw [none] at best
    exact best j (List.mem_finRange j)

/-! Messages -/

theorem State.sendMessage_eq (s : State) (i : Fin 4) :
    s.sendMessage i = withMessage s (Fin.ofNat 4 (i.val % s.vectorsEnabled)) := rfl

/-- One choice of the arbiter of a part that may write (R179). -/
theorem exec_postedWriteChoice (listens : s.Listening) (mastering : s.busMastering = true) :
    exec .postedWriteChoice s = .next s.chooseWrite := by
  refine (congrArg Host.Outcome.next (State.hostEvent_of_listening listens _)).trans ?_
  simp [State.takeHost, State.writeReady, mastering]

/-- A ring is served when no message of the part itself stands before it (R179). -/
theorem State.chooseWrite_of_served {i : Fin 4} (halt : s.haltMessage = false) (closing : s.closing = [])
    (served : s.servedRing = some i) : s.chooseWrite = s.serveRing i := by
  simp [State.chooseWrite, halt, closing, served]

/-- Settles O43: halt message, closing messages, due message, in this order. -/
theorem postedWriteSendsMessagesFirst : Obligations.PostedWriteSendsMessagesFirst := by
  intro s listens
  refine ⟨?_, ?_, ?_, ?_, ?_⟩
  · intro disabled
    refine (congrArg Host.Outcome.next (State.hostEvent_of_listening listens _)).trans ?_
    simp [State.takeHost, State.writeReady, disabled]
  · intro mastering halt
    rw [exec_postedWriteChoice listens mastering, State.chooseWrite, if_pos halt, State.sendMessage_eq]
    rw [show Fin.ofNat 4 ((0 : Fin 4).val % s.vectorsEnabled) = 0 by simp]
  · intro m rest mastering halt closing
    rw [exec_postedWriteChoice listens mastering]
    simp only [State.chooseWrite, halt, closing]
    rfl
  · intro i mastering halt closing served due
    rw [exec_postedWriteChoice listens mastering, State.chooseWrite_of_served halt closing served, State.serveRing,
      if_pos due]
    rfl
  · intro r awaits
    simp [Ring.messageDue, awaits]

/-- A held message leaves on a vector that is not masked, while the link takes the part's writes (R180, log 12). -/
theorem State.releaseMessage_of_not_held {v : Fin 4} (h : s.vectors[v].held = false ∨ s.busMastering = false) :
    s.releaseMessage v = s := by
  rw [State.releaseMessage, if_neg]
  rintro ⟨mastering, held, -⟩
  obtain h | h := h <;> simp_all

@[simp] theorem State.vectors_setVector (v : Fin 4) (m : MsiVector) : (s.setVector v m).vectors[v] = m := by
  simp [State.setVector]

theorem State.setVector_setVector (v : Fin 4) (m n : MsiVector) :
    (s.setVector v m).setVector v n = s.setVector v n := by
  simp [State.setVector]

/-- Settles O40: the mask, and the message that leaves with it. -/
theorem unmaskingSendsTheHeldMessage : Obligations.UnmaskingSendsTheHeldMessage := by
  intro s v awake
  refine ⟨congrArg Host.Outcome.next (if_neg (by simp [awake])), ?_, ?_⟩
  · intro quiet
    refine congrArg Host.Outcome.next ((if_neg (by simp [awake])).trans ?_)
    rw [State.releaseMessage_of_not_held]
    · rfl
    · rw [State.setMask, State.vectors_setVector]
      exact quiet
  · intro held mastering
    refine congrArg Host.Outcome.next ((if_neg (by simp [awake])).trans ?_)
    have leaves : (s.setMask v false).busMastering = true ∧ (s.setMask v false).vectors[v].held = true
        ∧ (s.setMask v false).vectors[v].masked = false := by
      rw [State.setMask, State.vectors_setVector]
      exact ⟨mastering, held, rfl⟩
    rw [State.releaseMessage, if_pos leaves]
    simp only [State.setMask, State.vectors_setVector, State.setVector_setVector, State.message]
    cases enabled : s.msiEnabled with
    | false => simp [State.setVector, enabled]
    | true => simp [State.setVector, enabled, State.handOver]

/-! Bus mastering -/

theorem State.releaseMessages_of_none {l : List (Fin 4)} (h : ∀ v : Fin 4, s.vectors[v].held = false) :
    l.foldl State.releaseMessage s = s := by
  induction l with
  | nil => rfl
  | cons v vs ih => rw [List.foldl_cons, State.releaseMessage_of_not_held (.inl (h v)), ih]

/-- When no message is held, only the read that is due follows the set-up (R117). -/
theorem State.enableMastering_of_none {t : State} {msi : Option MsiSetup}
    (setUp : ({ (match msi with | some m => s.setMsi m | none => s) with busMastering := true } : State) = t)
    (none : ∀ v : Fin 4, t.vectors[v].held = false) (runs : t.refclk = .running) :
    s.enableMastering msi = t.issueRead := by
  have whole : s.enableMastering msi =
      if ((List.finRange 4).foldl State.releaseMessage t).refclk = .running then
        ((List.finRange 4).foldl State.releaseMessage t).issueRead
      else (List.finRange 4).foldl State.releaseMessage t := by
    subst setUp
    rfl
  rw [whole, State.releaseMessages_of_none none, if_pos runs]

/-- Settles O39: the set-up is taken, no held message leaves, and the read that is due is issued. -/
theorem busMasteringGatesReads : Obligations.BusMasteringGatesReads := by
  intro s awake
  have enabled (msi : Option MsiSetup) : exec (.busMasteringEnable msi) s = .next (s.enableMastering msi) :=
    congrArg Host.Outcome.next (if_neg (by simp [awake]))
  refine ⟨?_, congrArg Host.Outcome.next (if_neg (by simp [awake])), ?_, ?_⟩
  · intro runs none
    constructor
    · exact (enabled _).trans (congrArg Host.Outcome.next (State.enableMastering_of_none rfl none runs))
    · intro m
      refine (enabled _).trans (congrArg Host.Outcome.next (State.enableMastering_of_none rfl ?_ runs))
      intro v
      simpa [State.setMsi] using none v
  · intro running idle differ mastering
    rw [State.issueRead, if_pos ⟨running, idle, differ, mastering⟩]
  · intro not
    rw [State.issueRead, if_neg]
    rintro ⟨running, idle, differ, mastering⟩
    obtain h | h | h | h := not
    · exact h running
    · exact h idle
    · exact differ h
    · simp [h] at mastering

/-! The holdoff timer -/

/-- Settles O59: the expiry is due on an ACTIVE ring only. -/
theorem holdoffTimerExpires : Obligations.HoldoffTimerExpires := by
  intro s i
  constructor
  · intro active running
    exact congrArg Host.Outcome.next (if_pos (by simp [Ring.expiryDue, active, running]))
  · intro other
    exact congrArg Host.Outcome.next (if_neg (by simp [Ring.expiryDue, other]))

/-! Closing messages -/

theorem placeClosing_perm (m : ClosingMessage) (l : List ClosingMessage) : (placeClosing m l).Perm (m :: l) := by
  induction l with
  | nil => exact List.Perm.refl _
  | cons k ks ih =>
    rw [placeClosing]
    split
    · exact List.Perm.refl _
    · exact (List.Perm.cons k ih).trans (List.Perm.swap m k ks)

theorem takenFirst_trans {a b c : ClosingMessage} (h : takenFirst a b) (k : takenFirst b c) : takenFirst a c := by
  unfold takenFirst at *
  omega

/-- A message put at its place keeps the order (R182). -/
theorem placeClosing_pairwise {m : ClosingMessage} {l : List ClosingMessage} (h : l.Pairwise takenFirst) :
    (placeClosing m l).Pairwise takenFirst := by
  induction l with
  | nil => simp [placeClosing]
  | cons k ks ih =>
    obtain ⟨first, rest⟩ := List.pairwise_cons.mp h
    rw [placeClosing]
    split
    · rename_i before
      have mk : takenFirst m k := before.imp_right fun ⟨e, lt⟩ => ⟨e, le_of_lt lt⟩
      refine List.pairwise_cons.mpr ⟨fun x hx => ?_, h⟩
      obtain rfl | hx := List.mem_cons.mp hx
      · exact mk
      · exact takenFirst_trans mk (first x hx)
    · rename_i after
      refine List.pairwise_cons.mpr ⟨fun x hx => ?_, ih rest⟩
      obtain rfl | hx := List.mem_cons.mp ((placeClosing_perm m ks).mem_iff.mp hx)
      · unfold takenFirst
        omega
      · exact first x hx

/-- The message that a ring with records not announced is marked with (R182). -/
def State.closingOf (s : State) (i : Fin 4) : ClosingMessage := { level := (s.ring i).level, ring := i }

/-- A return to OFF marks ring `i` (R182). -/
def State.marks (s : State) (i : Fin 4) : Bool := decide ((s.ring i).state = .active ∧ 1 ≤ (s.ring i).unnotified)

/-- The messages after the rings of a list are looked at, in order. -/
def State.markOver (s : State) (l : List (Fin 4)) (ms : List ClosingMessage) : List ClosingMessage :=
  l.foldl (fun ms i => if (s.ring i).state = .active ∧ 1 ≤ (s.ring i).unnotified then
    placeClosing (s.closingOf i) ms else ms) ms

theorem State.markOver_perm (l : List (Fin 4)) (ms : List ClosingMessage) :
    (s.markOver l ms).Perm (ms ++ (l.filter s.marks).map s.closingOf) := by
  induction l generalizing ms with
  | nil => simp [State.markOver]
  | cons i is ih =>
    have next : s.markOver (i :: is) ms = s.markOver is (if (s.ring i).state = .active ∧ 1 ≤ (s.ring i).unnotified
      then placeClosing (s.closingOf i) ms else ms) := rfl
    rw [next]
    by_cases h : (s.ring i).state = .active ∧ 1 ≤ (s.ring i).unnotified
    · have marked : s.marks i = true := decide_eq_true h
      rw [if_pos h, List.filter_cons_of_pos marked, List.map_cons]
      refine (ih _).trans ?_
      exact ((placeClosing_perm _ ms).append_right _).trans List.perm_middle.symm
    · have notMarked : ¬s.marks i = true := by simpa [State.marks] using h
      rw [if_neg h, List.filter_cons_of_neg notMarked]
      exact ih ms

theorem State.markOver_pairwise (l : List (Fin 4)) {ms : List ClosingMessage} (h : ms.Pairwise takenFirst) :
    (s.markOver l ms).Pairwise takenFirst := by
  induction l generalizing ms with
  | nil => exact h
  | cons i is ih =>
    refine ih (ms := if (s.ring i).state = .active ∧ 1 ≤ (s.ring i).unnotified
      then placeClosing (s.closingOf i) ms else ms) ?_
    split
    · exact placeClosing_pairwise h
    · exact h

/-- Settles O60: the limit's return to OFF, and the order in which its closing messages are marked. -/
theorem quiesceLimitDiscardsWhatIsStaged : Obligations.QuiesceLimitDiscardsWhatIsStaged := by
  intro s
  refine ⟨State.markOver_perm _ _, fun h => State.markOver_pairwise _ h, ?_⟩
  intro quiescing long
  have reached : s.limitReached = true := by
    have : Config.quiesceLimit ≤ s.quiesceElapsed := long
    simp [State.limitReached, quiescing, this]
  refine (congrArg Host.Outcome.next (if_pos reached)).trans ?_
  rw [State.endLimit, State.toOff, State.stagedTotal_eq]

end Sys2Proof.Machine
end

section
/-! PROOFS. Output lines and the events of the tick (chapters 1 to 3 and 5): the level that an end leaves, the pin and
the carrier, the start of a train, the end of a fence, triggers, and the tick itself. -/

namespace Sys2Proof.Machine

set_option Elab.async false

variable {s : State}

/-! Lines -/

theorem LineLevel.rest_eq (v : Level) : LineLevel.rest v = (match v with | .low => LineLevel.low | .high => .high) := by
  cases v <;> rfl

theorem LineLevel.settled_eq (v : LineLevel) : v.settled = if v = .carrier then .low else v := by
  cases v <;> rfl

theorem LineLevel.rest_ne_carrier (v : Level) : LineLevel.rest v ≠ .carrier := by cases v <;> simp [LineLevel.rest]

theorem LineLevel.settled_ne_carrier (v : LineLevel) : v.settled ≠ .carrier := by cases v <;> simp [LineLevel.settled]

/-- The level that an end leaves is a resting one (R36, R57). -/
theorem Line.endLevel_eq (l : Line) (st : Status) (p : EndPolicy) :
    l.endLevel st p = if st = .aborted ∨ p = .idle then LineLevel.rest l.idle else l.present.settled := by
  unfold Line.endLevel
  by_cases h : st = .aborted
  · simp [h]
  · cases p <;> simp [h]

theorem Line.endLevel_ne_carrier (l : Line) (st : Status) (p : EndPolicy) : l.endLevel st p ≠ .carrier := by
  rw [Line.endLevel_eq]
  split
  · exact LineLevel.rest_ne_carrier _
  · exact LineLevel.settled_ne_carrier _

/-- A line that takes a resting level stops its modulator (R31). -/
theorem Line.take_of_ne_carrier (l : Line) {v : LineLevel} (h : v ≠ .carrier) :
    l.take v = { l with present := v, modulator := none } := by
  rw [Line.take_eq, if_neg h]

/-- Settles O49: the owner's end, the successor's, and another train's. -/
theorem lineAtATrainsEnd : Obligations.LineAtATrainsEnd := by
  intro l i st p
  refine ⟨?_, ?_, ?_⟩
  · intro owner
    rw [Line.trainEnded, if_pos owner, Line.ownerEnded, Line.take_of_ne_carrier l (l.endLevel_ne_carrier st p),
      Line.endLevel_eq, LineLevel.rest_eq, LineLevel.settled_eq] <;> rfl
  · intro owner successor
    rw [Line.trainEnded, if_neg owner, if_pos successor]
  · intro owner successor
    rw [Line.trainEnded, if_neg owner, if_neg successor]

/-- A pin that shows a low output is driven LOW, unless its line's drive is OFF (R22). -/
theorem Line.pinOut_low {l : Line} (drive : l.drive ≠ .off)
    (low : l.present = .low ∨ l.present = .carrier ∧ ∃ m, l.modulator = some m ∧ m.high = false) :
    l.pinOut = .drivenLow := by
  obtain low | ⟨carrier, m, runs, low⟩ := low
  · cases d : l.drive <;> simp_all [Line.pinOut]
  · cases d : l.drive <;> simp_all [Line.pinOut]

/-- A high output is driven HIGH by push-pull, and released by open drain (R22). -/
theorem Line.pinOut_high {l : Line} (drive : l.drive ≠ .off)
    (high : l.present = .high ∨ l.present = .carrier ∧ ∃ m, l.modulator = some m ∧ m.high = true) :
    l.pinOut = if l.drive = .pushPull then .drivenHigh else .released := by
  obtain high | ⟨carrier, m, runs, high⟩ := high
  · cases d : l.drive <;> simp_all [Line.pinOut]
  · cases d : l.drive <;> simp_all [Line.pinOut]

/-- Settles O50: released, driven LOW, and driven HIGH or released. -/
theorem pinFollowsDriveAndLevel : Obligations.PinFollowsDriveAndLevel := by
  intro s i
  have awake (h : s.resetHeld = false) : s.pinOut i = (s.line i).pinOut := if_neg (by simp [h])
  refine ⟨?_, fun h drive low => (awake h).trans (Line.pinOut_low drive low),
    fun h drive high => (awake h).trans (Line.pinOut_high drive high)⟩
  rintro (held | off)
  · exact if_pos held
  · by_cases held : s.resetHeld = true
    · exact if_pos held
    · exact (if_neg held).trans (by simp [Line.pinOut, off])

/-- The carrier's output is due to change when it is not what the position calls for (R29). -/
theorem Line.toggleDue_of_modulator {l : Line} {m : Modulator} (runs : l.modulator = some m) :
    l.toggleDue = decide (m.high ≠ decide (m.position < l.highWidth)) := by
  rw [Line.toggleDue, runs]
  rfl

theorem Line.toggle_of_modulator {l : Line} {m : Modulator} (runs : l.modulator = some m) :
    l.toggle = { l with modulator := some { m with high := decide (m.position < l.highWidth) } } := by
  simp [Line.toggle, runs, Line.carrierHigh]

/-- Settles O51: the output falls at the high width, rises at the wrap, and else stays. -/
theorem carrierTogglesAtItsPhases : Obligations.CarrierTogglesAtItsPhases := by
  intro s i m runs
  have due := Line.toggleDue_of_modulator runs
  have toggled := Line.toggle_of_modulator runs
  refine ⟨?_, ?_, ?_⟩
  · intro high reached
    have low : decide (m.position < (s.line i).highWidth) = false := decide_eq_false (Nat.not_lt.mpr reached)
    rw [low] at due toggled
    exact congrArg Host.Outcome.next ((if_pos (by simp [due, high])).trans (by rw [toggled]))
  · intro low before
    have high : decide (m.position < (s.line i).highWidth) = true := decide_eq_true before
    rw [high] at due toggled
    exact congrArg Host.Outcome.next ((if_pos (by simp [due, low])).trans (by rw [toggled]))
  · intro same
    exact congrArg Host.Outcome.next (if_neg (by simp [due, same]))

/-! Starts and triggers -/

/-- A train begins with its segment 0 (R50). -/
theorem State.begin_of_segment (s : State) (i : Fin 32) {t : Train} {g : Segment} (h : t.segments[0]? = some g) :
    s.begin i t =
      ((s.setTrain i (some { t with state := .running, index := 0 })).levelRequest t.line g.level).insert
        (.train i) .boundary (after s.deviceTime g.duration) :=
  s.enterSegment_of_segment i (t := { t with state := .running }) h

/-- Settles O45: the delivered START enters segment 0 of the running train. -/
theorem startDeliveredRunsTheTrain : Obligations.StartDeliveredRunsTheTrain := by
  intro s k t g rest due live first l
  have live' : ({ s with calendar := rest } : State).train k = some t := live
  refine (congrArg Host.Outcome.next (State.deliver_of_dueNow due _)).trans ?_
  simp only [live']
  rw [State.begin_of_segment _ k first, State.levelRequest, Line.take_eq]
  rfl

/-- Settles O58: the edge's request is granted or past. -/
theorem triggerArmsOrStartsLate : Obligations.TriggerArmsOrStartsLate := by
  intro s k t g stamp live first asked
  have fired : State.fire stamp s k = s.arm k t asked := by
    simp only [State.fire, live]
    rfl
  rw [fired]
  constructor
  · intro ahead
    simp only [State.arm, State.insert, State.request, State.setTrain_deviceTime, ahead, if_true, Option.getD_some]
    rfl
  · intro past
    have none : s.request (.train k) .start asked = none := if_neg (by simp [past])
    simp only [State.arm, none, State.startNow]
    exact s.begin_of_segment k
      (t := { t with startTime := some s.deviceTime, late := t.late || decide (asked ≠ s.deviceTime) }) first

/-! The fence -/

/-- The end of a fence, its record field by field (R140). -/
theorem State.endFence_eq (s : State) (f : Fence) (st : Status) :
    s.endFence f st = { (s.leave .fence).stageFinal f.ring (fenceEndOf s f.tag st f.acceptedAt f.count) with
      fetch := .idle } := rfl

/-- Settles O54: the timeout delivered, and the report by the count that is left. -/
theorem fenceEndsByTimeoutOrCount : Obligations.FenceEndsByTimeoutOrCount := by
  intro s f waits
  refine ⟨?_, ?_, ?_⟩
  · intro rest due
    refine (congrArg Host.Outcome.next (State.deliver_of_dueNow due _)).trans ?_
    simp only [waits, State.endFence_eq]
    rfl
  · intro more
    have notLast : ¬(f.count - 1 = 0 ∧ s.device = .running) := by
      rintro ⟨last, running⟩
      obtain more | ⟨-, other⟩ := more
      · omega
      · exact other running
    simp only [State.reportEnd, waits, if_neg notLast]
  · intro one running
    have last : f.count - 1 = 0 ∧ s.device = .running := ⟨by omega, running⟩
    simp only [State.reportEnd, waits, if_pos last]
    rw [last.1, State.endFence_eq]

/-! The state after reset -/

theorem State.reset_train (i : Fin 32) : State.reset.train i = none := Vector.getElem_replicate ..

theorem State.reset_capture (i : Fin 16) : State.reset.capture i = none := Vector.getElem_replicate ..

theorem State.reset_line (i : Fin 16) : State.reset.line i = Line.reset := Vector.getElem_replicate ..

theorem State.reset_ring (i : Fin 4) : State.reset.ring i = Ring.undefined := Vector.getElem_replicate ..

/-- Settles O10: every table is empty and every line and ring at its reset value. -/
theorem resetIsSound : Obligations.ResetIsSound := by
  have noWork : State.reset.NoWork := ⟨State.reset_train, State.reset_capture, rfl⟩
  have admission : State.reset.admission = [] := rfl
  have calendar : State.reset.calendar = [] := rfl
  have tagMap : State.reset.tagMap = [] := rfl
  have waiting : State.reset.fetch.waiting = none := rfl
  have off : State.reset.device = .off := rfl
  refine ⟨?_, ?_, ?_, ?_, ?_, ?_, ?_, ?_, ?_⟩
  · simp [State.LinesSound, State.reset_train, State.reset_line, Line.reset]
  · simp [State.RingsSound, State.reset_ring, Ring.undefined, Ring.Sound, off]
  · exact ⟨fun on => absurd off on, fun r hr => by simp [State.reset, Fetch.outstanding] at hr⟩
  · refine ⟨by simp [admission], fun i => ?_, fun i => ?_, ?_, by simp [calendar], fun _ => noWork⟩
    · simp [State.reset_train, admission]
    · simp [State.reset_capture, admission]
    · simp [waiting, admission]
  · refine ⟨by simp [tagMap], by simp [tagMap], fun i => ?_, fun i => ?_, by simp [waiting]⟩
    · simp [State.reset_train]
    · simp [State.reset_capture]
  · intro i
    have none : State.reset.worksOn i = 0 := by
      simp [State.worksOn, State.reset_train, State.reset_capture, Train.owes, Capture.owes, Fence.owes, waiting]
    simp [none, State.reset_ring, Ring.undefined, Ring.account]
  · refine ⟨fun i => ⟨by simp [State.reset_train], ?_⟩, by simp [calendar]⟩
    simp [State.reset_train, Train.entryCount, State.entriesOf, calendar]
  · intro j u live
    simp [State.reset_train] at live
  · exact ⟨by simp [calendar], by simp [calendar], fun _ => rfl⟩

end Sys2Proof.Machine
end

section
/-! PROOFS. The events of a tick (chapter 1): what is due, block by block; which due event an empty queue takes; and
the tick. -/

namespace Sys2Proof.Machine

set_option Elab.async false

variable {s : State}

/-! What is due -/

theorem State.mem_hostDue (d : Due) :
    d ∈ s.hostDue ↔ ∃ e rest, s.refclk = .running ∧ s.heldEvents = e :: rest ∧ d = .host e := by
  unfold State.hostDue
  cases s.refclk <;> cases s.heldEvents <;> simp

/-- The calendar delivers its head, when that is due (R15). -/
theorem State.mem_calendarDue (d : Due) :
    d ∈ s.calendarDue ↔ ∃ e rest, s.calendar = e :: rest ∧ e.due = s.deviceTime ∧ d ∈ e.delivery := by
  unfold State.calendarDue
  cases h : s.dueEntry with
  | none =>
    simp only [List.not_mem_nil, false_iff]
    rintro ⟨e, rest, head, due, -⟩
    simp [(s.dueEntry_eq_some e).mpr ⟨rest, head, due⟩] at h
  | some e =>
    obtain ⟨rest, head, due⟩ := (s.dueEntry_eq_some e).mp h
    constructor
    · exact fun mem => ⟨e, rest, head, due, mem⟩
    · rintro ⟨f, rest', head', -, mem⟩
      obtain ⟨rfl, -⟩ := List.cons.inj (head.symm.trans head')
      exact mem

/-- The command that a delivery is (section 1.6). -/
theorem Entry.mem_delivery (e : Entry) (c : Instr) :
    Due.own c ∈ e.delivery ↔ (∃ i, e.owner = .train i ∧ e.action = .start ∧ c = .startDelivered i)
      ∨ (∃ i, e.owner = .train i ∧ e.action = .boundary ∧ c = .boundaryDelivered i)
      ∨ (∃ i, e.owner = .capture i ∧ e.action = .openWindow ∧ c = .openDelivered i)
      ∨ (∃ i, e.owner = .capture i ∧ e.action = .closeWindow ∧ c = .closeDelivered i)
      ∨ e.owner = .fence ∧ e.action = .timeout ∧ c = .timeoutDelivered := by
  obtain ⟨due, owner, action⟩ := e
  cases owner <;> cases action <;> simp [Entry.delivery]

/-- A delivery of the calendar, as a command: the entry of its work is the head, due now (R15). -/
theorem State.own_mem_calendarDue (c : Instr) :
    Due.own c ∈ s.calendarDue ↔ (∃ i rest, DueNow s (.train i) .start rest ∧ c = .startDelivered i)
      ∨ (∃ i rest, DueNow s (.train i) .boundary rest ∧ c = .boundaryDelivered i)
      ∨ (∃ i rest, DueNow s (.capture i) .openWindow rest ∧ c = .openDelivered i)
      ∨ (∃ i rest, DueNow s (.capture i) .closeWindow rest ∧ c = .closeDelivered i)
      ∨ ∃ rest, DueNow s .fence .timeout rest ∧ c = .timeoutDelivered := by
  rw [State.mem_calendarDue]
  constructor
  · rintro ⟨⟨due, owner, action⟩, rest, head, rfl, mem⟩
    obtain ⟨i, rfl, rfl, rfl⟩ | ⟨i, rfl, rfl, rfl⟩ | ⟨i, rfl, rfl, rfl⟩ | ⟨i, rfl, rfl, rfl⟩ | ⟨rfl, rfl, rfl⟩ :=
      (Entry.mem_delivery _ c).mp mem
    · exact .inl ⟨i, rest, head, rfl⟩
    · exact .inr (.inl ⟨i, rest, head, rfl⟩)
    · exact .inr (.inr (.inl ⟨i, rest, head, rfl⟩))
    · exact .inr (.inr (.inr (.inl ⟨i, rest, head, rfl⟩)))
    · exact .inr (.inr (.inr (.inr ⟨rest, head, rfl⟩)))
  · rintro (⟨i, rest, head, rfl⟩ | ⟨i, rest, head, rfl⟩ | ⟨i, rest, head, rfl⟩ | ⟨i, rest, head, rfl⟩
      | ⟨rest, head, rfl⟩) <;> exact ⟨_, rest, head, rfl, by simp [Entry.delivery]⟩

theorem State.sampleDue_iff (awake : s.resetHeld = false) (i : Fin 8) :
    s.sampleDue i = true ↔ (s.input i).sampled = false ∧ (s.input i).pin ≠ (s.input i).raw := by
  simp [State.sampleDue, awake]

/-- The candidate that is confirmed at this tick (R74). -/
theorem State.confirmDue_eq_some (i : Fin 8) (c : Candidate) : s.confirmDue i = some c ↔ ConfirmedNow s i c := by
  cases h : (s.input i).candidate with
  | none => simp [State.confirmDue, ConfirmedNow, h]
  | some x =>
    by_cases now : (s.input i).enabled = true ∧ s.rawNow i = x.level
        ∧ s.deviceTime = after x.firstSeen (s.input i).filterLength
    · simp only [State.confirmDue, h, if_pos now, Option.some.injEq]
      constructor
      · rintro rfl
        exact ⟨now.1, h, now.2⟩
      · exact fun k => Option.some.inj (h.symm.trans k.2.1)
    · simp only [State.confirmDue, h, if_neg now, reduceCtorEq, false_iff]
      rintro ⟨on, same, rest⟩
      obtain rfl := Option.some.inj (h.symm.trans same)
      exact now ⟨on, rest⟩

theorem State.own_mem_inputDue (awake : s.resetHeld = false) (c : Instr) (i : Fin 8) :
    Due.own c ∈ s.inputDue i ↔
      ((s.input i).sampled = false ∧ (s.input i).pin ≠ (s.input i).raw) ∧ c = .inputLevelChange i (s.input i).pin
      ∨ ((∃ x, ConfirmedNow s i x) ∧ ¬((s.input i).sampled = false ∧ (s.input i).pin ≠ (s.input i).raw))
        ∧ c = .edgeConfirmed i := by
  have confirmed : (s.confirmDue i).isSome = true ↔ ∃ x, ConfirmedNow s i x := by
    rw [Option.isSome_iff_exists]
    exact exists_congr fun x => State.confirmDue_eq_some i x
  unfold State.inputDue
  simp only [← State.sampleDue_iff awake i, ← confirmed]
  by_cases sample : s.sampleDue i = true
  · simp [sample]
  · by_cases confirm : (s.confirmDue i).isSome = true <;> simp [sample, confirm]

theorem State.own_mem_holdoffDue (c : Instr) (i : Fin 4) :
    Due.own c ∈ s.holdoffDue i ↔
      ((s.ring i).state = .active ∧ (s.ring i).timer = .running s.deviceTime) ∧ c = .holdoffExpiry i := by
  unfold State.holdoffDue Ring.expiryDue
  split <;> simp_all

theorem Line.toggleDue_iff (l : Line) :
    l.toggleDue = true ↔ ∃ m, l.modulator = some m ∧ m.high ≠ decide (m.position < l.highWidth) := by
  cases h : l.modulator with
  | none => simp [Line.toggleDue, h]
  | some m => rw [Line.toggleDue_of_modulator h, decide_eq_true_eq]; simp

theorem State.own_mem_toggleDue (c : Instr) (i : Fin 16) :
    Due.own c ∈ s.toggleDue i ↔
      (∃ m, (s.line i).modulator = some m ∧ m.high ≠ decide (m.position < (s.line i).highWidth))
        ∧ c = .carrierToggle i := by
  rw [← Line.toggleDue_iff]
  unfold State.toggleDue
  split <;> simp_all

theorem State.limitReached_iff : s.limitReached = true ↔ s.device = .quiescing ∧ 125000 ≤ s.quiesceElapsed := by
  rw [State.limitReached, Bool.and_eq_true, decide_eq_true_eq, decide_eq_true_eq]
  rfl

theorem State.readOverdue_iff :
    s.readOverdue = true ↔ s.device = .running ∧ ∃ r, s.fetch = .reading r ∧ 6250000 ≤ r.elapsed := by
  unfold State.readOverdue
  cases s.fetch with
  | reading r =>
    rw [Bool.and_eq_true, decide_eq_true_eq, decide_eq_true_eq]
    simp [Config.readLimit]
  | idle => simp
  | stalled c t => simp
  | fenced f => simp

/-- The part's own events that are due, source by source. -/
theorem State.own_mem_dueEvents (c : Instr) :
    Due.own c ∈ s.dueEvents ↔ s.resetHeld = false ∧ (Due.own c ∈ s.calendarDue ∨ (∃ i, Due.own c ∈ s.inputDue i)
      ∨ (∃ i, Due.own c ∈ s.holdoffDue i) ∨ (∃ i, Due.own c ∈ s.toggleDue i)
      ∨ (s.limitReached = true ∧ c = .quiesceLimitExpiry) ∨ (s.readOverdue = true ∧ c = .submissionReadTimeout)) := by
  unfold State.dueEvents
  cases s.resetHeld with
  | true => simp
  | false =>
    simp only [Bool.false_eq_true, if_false, List.mem_append, State.mem_hostDue, List.mem_flatMap, List.mem_finRange,
      true_and, reduceCtorEq, and_false, exists_const, or_assoc]
    cases s.limitReached <;> cases s.readOverdue <;> simp

/-- A host event that is due is the oldest one held (R2). -/
theorem State.host_mem_dueEvents (e : HostEvent) :
    Due.host e ∈ s.dueEvents ↔ s.resetHeld = false ∧ Due.host e ∈ s.hostDue := by
  have notDelivered (f : Entry) : Due.host e ∉ f.delivery := by
    obtain ⟨due, owner, action⟩ := f
    cases owner <;> cases action <;> simp [Entry.delivery]
  have calendar : Due.host e ∉ s.calendarDue := by
    rw [State.mem_calendarDue]
    rintro ⟨f, rest, -, -, mem⟩
    exact notDelivered f mem
  have input (i : Fin 8) : Due.host e ∉ s.inputDue i := by
    unfold State.inputDue
    split
    · simp
    · split <;> simp
  have holdoff (i : Fin 4) : Due.host e ∉ s.holdoffDue i := by
    unfold State.holdoffDue
    split <;> simp
  have toggle (i : Fin 16) : Due.host e ∉ s.toggleDue i := by
    unfold State.toggleDue
    split <;> simp
  unfold State.dueEvents
  cases s.resetHeld with
  | true => simp
  | false =>
    simp only [Bool.false_eq_true, if_false, List.mem_append, List.mem_flatMap, calendar, input, holdoff, toggle,
      and_false, exists_const, or_false, true_and]
    cases s.limitReached <;> cases s.readOverdue <;> simp

/-- The own events that are due are those of `OwnEventDue`, command by command. -/
theorem State.own_due_iff (c : Instr) : Due.own c ∈ s.dueEvents ↔ s.resetHeld = false ∧ OwnEventDue s c := by
  rw [State.own_mem_dueEvents]
  refine and_congr_right fun awake => ?_
  simp only [State.own_mem_calendarDue, State.own_mem_inputDue awake, State.own_mem_holdoffDue,
    State.own_mem_toggleDue, State.limitReached_iff, State.readOverdue_iff]
  cases c <;> simp [OwnEventDue, and_assoc]

/-! The choice, and the tick -/

/-- Of several due events one is chosen, the only one if there is one only (log 3). -/
theorem chooseDue_mem (asked : Nat) {l : List Due} (h : l ≠ []) : ∃ d ∈ l, chooseDue asked l = some d := by
  match l with
  | [] => exact absurd rfl h
  | [d] => exact ⟨d, by simp, rfl⟩
  | d :: e :: rest =>
    have inside : Config.eventOrder asked % (d :: e :: rest).length < (d :: e :: rest).length :=
      Nat.mod_lt _ (by simp)
    exact ⟨_, List.getElem_mem inside, List.getElem?_eq_getElem inside⟩

theorem step_of_due {d : Due} (empty : s.pending = []) (chosen : chooseDue s.choices s.dueEvents = some d) :
    step s = takeDue { s with choices := s.choices + 1 } d := by
  simp only [step, empty, idle, chosen]

theorem step_of_none_due (empty : s.pending = []) (none : s.dueEvents = []) : step s = .next s.tick := by
  simp only [step, empty, idle, none]
  rfl

/-- A held host event that is due is taken from the front of its queue (R2). -/
theorem takeDue_host {e : HostEvent} {rest : List HostEvent} (held : s.heldEvents = e :: rest) :
    takeDue { s with choices := s.choices + 1 } (.host e) =
      .next (State.takeHost { s with heldEvents := rest, choices := s.choices + 1 } e) := by
  simp only [takeDue, held, List.tail_cons]

theorem Fetch.advance_eq (f : Fetch) : f.advance = match f with
    | .reading r => .reading { r with elapsed := r.elapsed + 1 }
    | other => other := by
  cases f <;> rfl

/-- A tick passes unless the clock is stopped (R2). -/
theorem State.tick_of_clock (awake : s.resetHeld = false) (clock : s.refclk ≠ .stopped) :
    s.tick = s.count.issueRead := by
  cases h : s.refclk with
  | stopped => exact absurd h clock
  | running => simp [State.tick, h, awake]
  | resuming => simp [State.tick, h, awake]

/-- Settles O2: what is due, the choice among it, and the tick when nothing is. -/
theorem emptyQueueTakesWhatIsDueOrTicks : Obligations.EmptyQueueTakesWhatIsDueOrTicks := by
  refine ⟨fun s c => State.own_due_iff c, fun s empty => ⟨?_, ?_⟩, fun s empty none awake => ⟨?_, ?_⟩⟩
  · intro c only
    exact step_of_due empty (by rw [only]; rfl)
  · intro some
    obtain ⟨d, mem, chosen⟩ := chooseDue_mem s.choices some
    cases d with
    | own c => exact .inl ⟨c, mem, step_of_due empty chosen⟩
    | host e =>
      obtain ⟨x, rest, -, held, same⟩ := (State.mem_hostDue _).mp ((State.host_mem_dueEvents e).mp mem).2
      obtain rfl : e = x := Due.host.inj same
      exact .inr ⟨e, rest, held, mem, (step_of_due empty chosen).trans (takeDue_host held)⟩
  · intro clock
    rw [step_of_none_due empty none, State.tick_of_clock awake clock, State.count, Fetch.advance_eq]
    rfl
  · intro stopped
    rw [step_of_none_due empty none, State.tick, stopped]

end Sys2Proof.Machine
end

section
/-! PROOFS. The fixed order of checks (R126): each check of the model fails under the condition that the statement
gives for it, kind by kind, and a record that passes them all names an ACTIVE ring. -/

namespace Sys2Proof.Machine

set_option Elab.async false

variable {s : State}

/-! Lists of checks -/

theorem firstRefusal_eq_none {l : List (Option Status)} : firstRefusal l = none ↔ ∀ x ∈ l, x = none := by
  induction l with
  | nil => simp [firstRefusal]
  | cons x xs ih => cases x <;> simp [firstRefusal, ih]

/-- The check of a condition, and the checks behind it when it passes. -/
theorem firstThatFails_cons {p : Prop} {b : Bool} {st : Status} {rest : List (Prop × Status)}
    {l : List (Option Status)} (fails : b = true ↔ p) (behind : ¬p → FirstThatFails rest (firstRefusal l)) :
    FirstThatFails ((p, st) :: rest) (firstRefusal (refuseIf b st :: l)) := by
  cases b with
  | true => exact .inl ⟨fails.mp rfl, rfl⟩
  | false =>
    have passes : ¬p := fun h => by simpa using fails.mpr h
    exact .inr ⟨passes, behind passes⟩

/-- A check that the model makes at once and the statement in two parts. -/
theorem firstThatFails_two {p q : Prop} {x : Option Status} {st su : Status} {rest : List (Prop × Status)}
    {l : List (Option Status)}
    (answer : p ∧ x = some st ∨ ¬p ∧ q ∧ x = some su ∨ ¬p ∧ ¬q ∧ x = none)
    (behind : ¬p → ¬q → FirstThatFails rest (firstRefusal l)) :
    FirstThatFails ((p, st) :: (q, su) :: rest) (firstRefusal (x :: l)) := by
  obtain ⟨hp, rfl⟩ | ⟨hp, hq, rfl⟩ | ⟨hp, hq, rfl⟩ := answer
  · exact .inl ⟨hp, rfl⟩
  · exact .inr ⟨hp, .inl ⟨hq, rfl⟩⟩
  · exact .inr ⟨hp, .inr ⟨hq, behind hp hq⟩⟩

theorem firstThatFails_nil : FirstThatFails [] (firstRefusal []) := rfl

/-- A condition in the positive form refuses under its negation. -/
theorem not_ok_iff {ok : Bool} {bad : Prop} (h : ok = true ↔ ¬bad) : (!ok) = true ↔ bad := by
  rw [Bool.not_eq_true', ← Bool.not_eq_true, h, not_not]

/-! The ring -/

theorem ringNumber_eq_some {n : BitVec 8} {k : Fin 4} : ringNumber n = some k ↔ n.toNat = k.val := by
  unfold ringNumber
  split
  · simp [Fin.ext_iff]
  · simp only [reduceCtorEq, false_iff]
    omega

theorem ringNumber_eq_none {n : BitVec 8} : ringNumber n = none ↔ 3 < n.toNat := by
  unfold ringNumber
  split
  · simp only [reduceCtorEq, false_iff]
    omega
  · simp only [true_iff]
    omega

/-- The ring check in its two parts (R122). -/
theorem firstThatFails_ring (h : Header) {rest : List (Prop × Status)} {l : List (Option Status)}
    (behind : FirstThatFails rest (firstRefusal l)) :
    FirstThatFails (ringChecks s h ++ rest) (firstRefusal (s.ringRefusal h :: l)) := by
  refine firstThatFails_two ?_ fun _ _ => behind
  cases named : ringNumber h.ring with
  | none => exact .inl ⟨.inl (ringNumber_eq_none.mp named), by simp [State.ringRefusal, named]⟩
  | some k =>
    have number := ringNumber_eq_some.mp named
    have only (j : Fin 4) (e : h.ring.toNat = j.val) : j = k := Fin.ext (e.symm.trans number)
    have small : ¬3 < h.ring.toNat := by omega
    cases state : (s.ring k).state with
    | undefined => exact .inl ⟨.inr ⟨k, number, state⟩, by simp [State.ringRefusal, named, state]⟩
    | faulted =>
      refine .inr (.inl ⟨?_, ⟨k, number, state⟩, by simp [State.ringRefusal, named, state]⟩)
      rintro (big | ⟨j, e, undefined⟩)
      · exact small big
      · rw [only j e, state] at undefined
        cases undefined
    | active =>
      refine .inr (.inr ⟨?_, ?_, by simp [State.ringRefusal, named, state]⟩)
      · rintro (big | ⟨j, e, undefined⟩)
        · exact small big
        · rw [only j e, state] at undefined
          cases undefined
      · rintro ⟨j, e, faulted⟩
        rw [only j e, state] at faulted
        cases faulted

/-- A record that meets the ring check and no other behind it. -/
theorem firstThatFails_ring_last (h : Header) :
    FirstThatFails (ringChecks s h) (firstRefusal [s.ringRefusal h]) :=
  firstThatFails_ring h (rest := []) (l := []) firstThatFails_nil

/-- Every record of a known kind meets the ring check. -/
theorem State.ringRefusal_of_check {i : Fin 4} {c : Submission} (passes : s.check i c = none) :
    s.ringRefusal c.header = none := by
  cases c with
  | unknown k h => simp [State.check] at passes
  | _ => exact firstRefusal_eq_none.mp passes _ (by simp [Submission.header])

/-- Settles O27: the ring check passes only on an ACTIVE ring that the header names. -/
theorem acceptedRecordNamesItsRing : Obligations.AcceptedRecordNamesItsRing := by
  intro s i c passes
  have ring := State.ringRefusal_of_check passes
  unfold State.ringRefusal at ring
  cases named : ringNumber c.header.ring with
  | none => simp [named] at ring
  | some k =>
    cases state : (s.ring k).state with
    | undefined => simp [named, state] at ring
    | faulted => simp [named, state] at ring
    | active =>
      rw [State.target_of_named named state]
      exact ⟨rfl, state⟩

/-! The fields -/

theorem Header.fieldsOk_iff (h : Header) (d : BitVec 8) : Header.fieldsOk h d = true ↔ ¬headerBad h d := by
  have flags : h.flags &&& ~~~d = 0#8 ↔ ¬∃ b : Fin 8, h.flags.getLsbD b.val = true ∧ d.getLsbD b.val = false := by
    constructor
    · rintro zero ⟨b, set, undefined⟩
      have bit := congrArg (fun x => x.getLsbD b.val) zero
      simp only [BitVec.getLsbD_and, BitVec.getLsbD_not, set, undefined, b.isLt, decide_true, Bool.not_false,
        Bool.and_self, BitVec.getLsbD_zero, reduceCtorEq] at bit
    · intro none
      apply BitVec.eq_of_getLsbD_eq
      intro b inside
      have bit : ¬(h.flags.getLsbD b = true ∧ d.getLsbD b = false) := fun both => none ⟨⟨b, inside⟩, both⟩
      simp only [BitVec.getLsbD_and, BitVec.getLsbD_not, inside, decide_true, Bool.true_and, BitVec.getLsbD_zero]
      generalize h.flags.getLsbD b = x at bit ⊢
      generalize d.getLsbD b = y at bit ⊢
      revert x y
      decide
  simp only [Header.fieldsOk, Header.flagsWithin, Bool.and_eq_true, decide_eq_true_eq, flags, headerBad, not_or,
    not_not, ne_eq]
  rfl

theorem Header.outLine_eq_some {h : Header} {l : Fin 16} : h.outLine = some l ↔ h.line.toNat = l.val := by
  unfold Header.outLine
  split
  · simp [Fin.ext_iff]
  · simp only [reduceCtorEq, false_iff]
    omega

theorem Header.inLine_eq_some {h : Header} {l : Fin 8} : h.inLine = some l ↔ h.line.toNat = l.val := by
  unfold Header.inLine
  split
  · simp [Fin.ext_iff]
  · simp only [reduceCtorEq, false_iff]
    omega

theorem Header.isSome_outLine (h : Header) : h.outLine.isSome = true ↔ ¬15 < h.line.toNat := by
  unfold Header.outLine
  split
  · simp only [Option.isSome_some, true_iff]
    omega
  · simp only [Option.isSome_none, Bool.false_eq_true, false_iff]
    omega

theorem Header.isSome_inLine (h : Header) : h.inLine.isSome = true ↔ ¬7 < h.line.toNat := by
  unfold Header.inLine
  split
  · simp only [Option.isSome_some, true_iff]
    omega
  · simp only [Option.isSome_none, Bool.false_eq_true, false_iff]
    omega

/-- A condition on the line that a record names. -/
theorem Header.any_outLine (h : Header) (p : Fin 16 → Bool) :
    h.outLine.any p = true ↔ ∃ l : Fin 16, h.line.toNat = l.val ∧ p l = true := by
  rw [Option.any_eq_true]
  exact exists_congr fun l => and_congr_left fun _ => Header.outLine_eq_some

theorem Header.any_inLine (h : Header) (p : Fin 8 → Bool) :
    h.inLine.any p = true ↔ ∃ l : Fin 8, h.line.toNat = l.val ∧ p l = true := by
  rw [Option.any_eq_true]
  exact exists_congr fun l => and_congr_left fun _ => Header.inLine_eq_some

/-! The codes (R203) -/

theorem isSome_driveOfCode : ∀ c : BitVec 8, (driveOfCode c).isSome = true ↔ ¬2 < c.toNat := by decide

theorem isSome_levelOfCode : ∀ c : BitVec 8, (levelOfCode c).isSome = true ↔ ¬1 < c.toNat := by decide

theorem isSome_faultOfCode : ∀ c : BitVec 8, (faultOfCode c).isSome = true ↔ ¬3 < c.toNat := by decide

theorem isSome_policyOfCode : ∀ c : BitVec 8, (policyOfCode c).isSome = true ↔ ¬1 < c.toNat := by decide

theorem isSome_selectOfCode : ∀ c : BitVec 8, (selectOfCode c).isSome = true ↔ ¬2 < c.toNat := by decide

theorem isSome_modeOfCode : ∀ c : BitVec 8, (modeOfCode c).isSome = true ↔ ¬1 < c.toNat := by decide

theorem isSome_enabledOfCode : ∀ c : BitVec 8, (enabledOfCode c).isSome = true ↔ ¬1 < c.toNat := by decide

end Sys2Proof.Machine
end

section
/-! PROOFS. The checks of each kind in their order (R126), and the refusal of a record. -/

namespace Sys2Proof.Machine

set_option Elab.async false

variable {s : State}

/-! Fields, kind by kind -/

theorem eq_zero_iff_toNat {w : Nat} (x : BitVec w) : x = 0 ↔ x.toNat = 0 := by
  rw [← BitVec.toNat_inj]
  simp

theorem toNat_pos_iff {w : Nat} (x : BitVec w) : 1 ≤ x.toNat ↔ ¬x = 0 := by
  rw [Nat.one_le_iff_ne_zero, not_iff_not, eq_zero_iff_toNat]

/-- The fields of a DEFINE_RING (R163). -/
theorem defineRingOk_iff (h : Header) (b : DefineRingBody) : defineRingOk h b = true ↔
    ¬(headerBad h 0 ∨ b.number = 0 ∨ 3 < b.number.toNat ∨ b.size ≠ 0
      ∧ (b.size.toNat ∉ [16, 32, 64, 128, 256, 512, 1024, 2048, 4096] ∨ b.base.toNat % 64 ≠ 0
        ∨ 3 < b.level.toNat ∨ b.threshold = 0 ∨ 64 < b.threshold.toNat ∨ 65535 < b.holdoff.toNat)) := by
  have sizes : b.size.toNat ∈ crSizes ↔ b.size.toNat ∈ [16, 32, 64, 128, 256, 512, 1024, 2048, 4096] := Iff.rfl
  simp only [defineRingOk, Bool.and_eq_true, Bool.or_eq_true, decide_eq_true_eq, Header.fieldsOk_iff]
  simp only [sizes, toNat_pos_iff, not_or, not_and, not_not, ne_eq, Nat.not_lt, and_assoc]
  tauto

theorem carrierPairOk_iff (high period : BitVec 16) : carrierPairOk high.toNat period.toNat = true ↔
    ¬(¬(high = 0 ↔ period = 0) ∨ period ≠ 0 ∧ period.toNat ≤ high.toNat) := by
  simp only [carrierPairOk, Bool.and_eq_true, Bool.or_eq_true, decide_eq_true_eq, eq_zero_iff_toNat, ne_eq]
  omega

/-- The fields of a SET_OUTPUT (R24). -/
theorem setOutputOk_iff (h : Header) (b : SetOutputBody) : setOutputOk h b = true ↔
    ¬(headerBad h 0 ∨ 15 < h.line.toNat ∨ 2 < b.drive.toNat ∨ 1 < b.idle.toNat ∨ 3 < b.fault.toNat
      ∨ ¬(b.highWidth = 0 ↔ b.period = 0) ∨ b.period ≠ 0 ∧ b.period.toNat ≤ b.highWidth.toNat) := by
  simp only [setOutputOk, Bool.and_eq_true, Header.fieldsOk_iff, Header.isSome_outLine, isSome_driveOfCode,
    isSome_levelOfCode, isSome_faultOfCode, carrierPairOk_iff, and_assoc, not_or]

/-- The fields of a SET_INPUT (R75). -/
theorem setInputOk_iff (h : Header) (b : SetInputBody) : setInputOk h b = true ↔
    ¬(headerBad h 0 ∨ 7 < h.line.toNat ∨ 1 < b.enabled.toNat ∨ 255 < b.filterLength.toNat) := by
  simp only [setInputOk, Bool.and_eq_true, decide_eq_true_eq, Header.fieldsOk_iff, Header.isSome_inLine,
    isSome_enabledOfCode, and_assoc, ← Nat.not_lt, not_or]

theorem upperClear_iff_not (n : Nat) (x : BitVec 64) : upperClear n x = true ↔ ¬2 ^ n ≤ x.toNat := by
  rw [upperClear_iff, Nat.not_le]

/-- The fields of an ARM_CAPTURE (R81, R82). -/
theorem State.armCaptureOk_iff (h : Header) (b : ArmCaptureBody) :
    s.armCaptureOk h b = true ↔ ¬captureBad s h b := by
  have effective : s.effectiveOpen (b.openTime.setWidth 48) =
      if b.openTime.setWidth 48 ≠ 0 ∧ isFuture s.deviceTime (b.openTime.setWidth 48) = true then
        b.openTime.setWidth 48 else s.deviceTime := by
    simp only [State.effectiveOpen, State.opensLater, Bool.and_eq_true, decide_eq_true_eq]
  simp only [State.armCaptureOk, Bool.and_eq_true, Bool.or_eq_true, decide_eq_true_eq, Header.fieldsOk_iff,
    Header.isSome_inLine, isSome_selectOfCode, isSome_modeOfCode, upperClear_iff_not, effective, timeBits_eq,
    captureBad, not_or, not_and, Bool.not_eq_false, ne_eq, not_not]
  tauto

/-- The mode is IMMEDIATE or AT_PERIOD_END exactly when bit 3 is clear (R202). -/
theorem cancelMode_le_one (h : Header) : h.cancelMode ≤ 1 ↔ ¬h.flags.getLsbD 3 = true := by
  rw [Header.cancelMode]
  generalize h.flags = f
  revert f
  decide

/-- The fields of a CANCEL (R135). -/
theorem cancelOk_iff (h : Header) :
    cancelOk h = true ↔ ¬(headerBad h 0x0E ∨ h.tag = 0 ∨ h.flags.getLsbD 3 = true) := by
  simp only [cancelOk, Bool.and_eq_true, decide_eq_true_eq, Header.fieldsOk_iff, cancelMode_le_one, and_assoc,
    not_or, ne_eq]

/-- The fields of a FENCE (R137). -/
theorem fenceOk_iff (h : Header) (timeout : BitVec 64) :
    fenceOk h timeout = true ↔ ¬(headerBad h 0 ∨ timeout = 0 ∨ 2 ^ 32 ≤ timeout.toNat) := by
  simp only [fenceOk, Bool.and_eq_true, decide_eq_true_eq, Header.fieldsOk_iff, upperClear_iff_not, eq_zero_iff_toNat,
    not_or,
    and_assoc]
  refine and_congr_right fun _ => ?_
  constructor
  · rintro ⟨small, some⟩
    exact ⟨by rwa [← offsetBits_of_lt (Nat.not_le.mp small)], small⟩
  · rintro ⟨some, small⟩
    exact ⟨small, by rwa [offsetBits_of_lt (Nat.not_le.mp small)]⟩

theorem adjustTimeOk_iff (h : Header) (value : BitVec 64) :
    adjustTimeOk h value = true ↔ ¬(headerBad h 0 ∨ 2 ^ 48 ≤ value.toNat) := by
  simp only [adjustTimeOk, Bool.and_eq_true, Header.fieldsOk_iff, upperClear_iff_not, not_or]

/-! The fields of a START_TRAIN (R32, R45) -/

theorem segmentLevel_isSome (w : BitVec 32) : (segmentLevel w).isSome = true ↔ ¬w.extractLsb' 30 2 = 3#2 := by
  rw [segmentLevel]
  generalize w.extractLsb' 30 2 = c
  revert c
  decide

theorem segmentLevel_carrier (w : BitVec 32) : segmentLevel w = some .carrier ↔ w.extractLsb' 30 2 = 2#2 := by
  rw [segmentLevel]
  generalize w.extractLsb' 30 2 = c
  revert c
  decide

theorem segmentDuration_eq (w : BitVec 32) : segmentDuration w = w.toNat % 2 ^ 30 := by
  simp [segmentDuration]

theorem segmentOk_iff (w : BitVec 32) :
    segmentOk w = true ↔ ¬(w.extractLsb' 30 2 = 3#2 ∨ w.toNat % 2 ^ 30 < 4) := by
  rw [segmentOk, Bool.and_eq_true, decide_eq_true_eq, segmentLevel_isSome, segmentDuration_eq, not_or, Nat.not_lt]

/-- The kinds of start by their codes (R203). -/
theorem startKind_cases (b : StartTrainBody) :
    (b.startKind = 0 ∧ startKindOfCode b.startKind = some .atTime)
      ∨ (b.startKind = 1 ∧ startKindOfCode b.startKind = some .now)
      ∨ (b.startKind = 2 ∧ startKindOfCode b.startKind = some .afterEdge)
      ∨ (b.startKind = 3 ∧ startKindOfCode b.startKind = some .afterEnd)
      ∨ (3 < b.startKind.toNat ∧ startKindOfCode b.startKind = none) := by
  generalize b.startKind = k
  revert k
  decide

theorem offsetBits_lead (x : BitVec 64) (small : x.toNat < 2 ^ 32) :
    Config.admissionLead ≤ offsetBits x ↔ ¬x.toNat < 40 := by
  rw [offsetBits_of_lt small, Nat.not_lt]
  rfl

theorem startFieldsOk_iff (b : StartTrainBody) : startFieldsOk b = true ↔ ¬startBad b := by
  rw [startFieldsOk]
  obtain ⟨kind, code⟩ | ⟨kind, code⟩ | ⟨kind, code⟩ | ⟨kind, code⟩ | ⟨kind, code⟩ := startKind_cases b <;> rw [code]
  · simp [startBad, kind, upperClear_iff]
  · simp [startBad, kind]
  · by_cases small : b.time.toNat < 2 ^ 32
    · have lead := offsetBits_lead b.time small
      have clear := (upperClear_iff 32 b.time).mpr small
      have small' : ¬4294967296 ≤ b.time.toNat := Nat.not_le.mpr small
      simp [startBad, kind, lead, clear, small', and_assoc]
    · have clear : upperClear 32 b.time = false := by rw [← Bool.not_eq_true, upperClear_iff]; exact small
      have small' : 4294967296 ≤ b.time.toNat := Nat.not_lt.mp small
      simp [startBad, kind, clear, small']
  · simp [startBad, kind, upperClear_iff]
  · simp [startBad, kind]

/-- A CARRIER segment needs a carrier on the line (R32). -/
theorem State.carrierOk_iff {h : Header} (b : StartTrainBody) (named : ¬15 < h.line.toNat) :
    s.carrierOk h b = true ↔ ¬∃ l : Fin 16, h.line.toNat = l.val
      ∧ ((s.line l).highWidth = 0 ∨ (s.line l).period = 0) ∧ ∃ w ∈ wordsOf b, w.extractLsb' 30 2 = 2#2 := by
  obtain ⟨l, line⟩ := Option.isSome_iff_exists.mp ((Header.isSome_outLine h).mpr named)
  have number := Header.outLine_eq_some.mp line
  have only (j : Fin 16) : h.line.toNat = j.val ↔ j = l := by rw [number, Fin.ext_iff, eq_comm]
  have words : segmentWords b = wordsOf b := rfl
  simp only [State.carrierOk, line, only, exists_eq_left, Bool.or_eq_true, Bool.not_eq_true', List.any_eq_false,
    decide_eq_true_eq, segmentLevel_carrier, words, Line.carrierSet, Bool.and_eq_true]
  push Not
  tauto

theorem State.startTrainOk_iff (h : Header) (b : StartTrainBody) :
    s.startTrainOk h b = true ↔ ¬trainBad s h b := by
  have words : segmentWords b = wordsOf b := rfl
  have count : b.segmentCount = 0 ↔ ¬1 ≤ b.segmentCount.toNat := by rw [toNat_pos_iff, not_not]
  by_cases named : 15 < h.line.toNat
  · have none : ¬h.outLine.isSome = true := by rw [Header.isSome_outLine]; exact not_not_intro named
    simp [State.startTrainOk, trainBad, named, none]
  · simp only [State.startTrainOk, Bool.and_eq_true, decide_eq_true_eq, List.all_eq_true, Header.fieldsOk_iff,
      Header.isSome_outLine, segmentOk_iff, isSome_policyOfCode, startFieldsOk_iff, State.carrierOk_iff b named,
      words, trainBad, count, not_or, not_exists, not_and, not_not, Nat.not_lt, ne_eq, named, not_false_eq_true,
      true_and, and_true, and_assoc]

/-! The checks behind the fields -/

theorem State.isNone_lookup_iff (g : Tag) : (s.lookup g).isNone = true ↔ ∀ e ∈ s.tagMap, e.1 ≠ g := by
  rw [← Option.not_isSome, Bool.not_eq_true', ← Bool.not_eq_true, State.lookup_isSome_iff]
  push Not
  rfl

theorem State.isNone_freeTrain_iff : s.freeTrain.isNone = true ↔ ∀ k, s.train k ≠ none := by
  simp [State.freeTrain]

theorem State.isNone_freeCapture_iff : s.freeCapture.isNone = true ↔ ∀ k, s.capture k ≠ none := by
  simp [State.freeCapture]

/-- The ring that a DEFINE_RING names, its number in range, cannot change now (R165, R166). -/
theorem State.ringBusy_iff (i : Fin 4) (b : DefineRingBody) (small : b.number.toNat ≤ 3) :
    s.ringBusy (Fin.ofNat 4 b.number.toNat) i b.size.toNat = true ↔ ringCannotChange s i b := by
  obtain ⟨k, number⟩ : ∃ k : Fin 4, b.number.toNat = k.val := ⟨⟨b.number.toNat, by omega⟩, rfl⟩
  have only (j : Fin 4) : b.number.toNat = j.val ↔ j = k := by rw [number, Fin.ext_iff, eq_comm]
  simp only [ringCannotChange, only, exists_eq_left, Fin.ofNat_of_eq number, State.ringBusy, eq_zero_iff_toNat]
  have owed : 1 < (s.ring k).owed ∨ (s.ring k).owed = 1 ∧ i ≠ k ↔
      ¬((s.ring k).owed = 0 ∨ (s.ring k).owed = 1 ∧ i = k) := by omega
  cases state : (s.ring k).state with
  | undefined => simp
  | faulted =>
    simp only [reduceCtorEq, false_and, false_or, true_and, Bool.and_eq_true, Bool.not_eq_true', decide_eq_true_eq,
      Bool.and_eq_false_iff, decide_eq_false_iff_not]
  | active =>
    simp only [reduceCtorEq, false_and, or_false, true_and, Bool.and_eq_true, Bool.or_eq_true, Bool.not_eq_true',
      decide_eq_true_eq, Bool.and_eq_false_iff, Bool.or_eq_false_iff, decide_eq_false_iff_not, ne_eq]
    rw [← or_assoc (b := (s.ring k).owed = 1 ∧ ¬i = k), owed]
    tauto

/-- The line check of a START_TRAIN in its two parts (R33). -/
theorem State.lineRefusal_answer {h : Header} {b : StartTrainBody} {l : Fin 16} (number : h.line.toNat = l.val) :
    let off := ∃ l : Fin 16, h.line.toNat = l.val ∧ (s.line l).drive = .off
    let busy := ∃ l : Fin 16, h.line.toNat = l.val ∧ ∃ o ∈ (s.line l).owner, ¬((s.line l).successor = none
      ∧ b.startKind = 3 ∧ ∃ u ∈ s.train o, u.tag = b.reference)
    let x := s.lineRefusal (s.line l) (startOf b)
    off ∧ x = some .lineOff ∨ ¬off ∧ busy ∧ x = some .lineBusy ∨ ¬off ∧ ¬busy ∧ x = none := by
  have only (j : Fin 16) : h.line.toNat = j.val ↔ j = l := by rw [number, Fin.ext_iff, eq_comm]
  have onEnd (t : Train) : (startOf b).onEnd t.tag = true ↔ b.startKind = 3 ∧ t.tag = b.reference := by
    rw [startOf]
    obtain ⟨kind, code⟩ | ⟨kind, code⟩ | ⟨kind, code⟩ | ⟨kind, code⟩ | ⟨kind, code⟩ := startKind_cases b <;> rw [code]
    · simp [StartCondition.onEnd, kind]
    · simp [StartCondition.onEnd, kind]
    · simp [StartCondition.onEnd, kind]
    · simp [StartCondition.onEnd, kind, eq_comm]
    · have other : ¬b.startKind = 3#8 := fun e => by simp [e] at kind
      simp [StartCondition.onEnd, other]
  simp only [only, exists_eq_left, State.lineRefusal]
  by_cases drive : (s.line l).drive = .off
  · simp [drive]
  · cases owner : (s.line l).owner with
    | none => simp [drive]
    | some o =>
      have can : ((s.train o).any fun t => (startOf b).onEnd t.tag) = true ↔
          b.startKind = 3 ∧ ∃ u ∈ s.train o, u.tag = b.reference := by
        simp only [Option.any_eq_true, onEnd, Option.mem_def]
        tauto
      simp only [drive, if_false, can, Option.mem_def, Option.some.injEq, exists_eq_left', false_and, false_or,
        not_false_eq_true, true_and]
      split
      · rename_i yes
        exact .inr ⟨not_not_intro yes, rfl⟩
      · rename_i no
        exact .inl ⟨no, rfl⟩

/-- What a START_TRAIN's reference can answer, by its start kind (R98 to R100). -/
theorem State.reference_answer (b : StartTrainBody) {rest : List (Prop × Status)} {l : List (Option Status)}
    (behind : FirstThatFails rest (firstRefusal l)) :
    FirstThatFails
      ((b.startKind = 2 ∧ ¬∃ k, s.lookup b.reference = some (.capture k) ∧ s.capture k ≠ none, .noSuchTag)
        :: (b.startKind = 3 ∧ ¬∃ k, s.lookup b.reference = some (.train k), .noSuchTag)
        :: (b.startKind = 2 ∧ ∃ k, s.lookup b.reference = some (.capture k) ∧ ∃ c ∈ s.capture k,
          c.edgeLimit ≠ 0 ∧ c.edgeLimit < b.edgeNumber.toNat, .badField)
        :: (b.startKind = 2 ∧ ∃ k, s.lookup b.reference = some (.capture k) ∧ ∃ c ∈ s.capture k,
          b.edgeNumber.toNat ≤ c.taken, .triggerPassed) :: rest)
      (firstRefusal (s.referenceRefusal (startOf b)
        :: refuseIf (s.triggerPassed (startOf b)) .triggerPassed :: l)) := by
  rw [startOf]
  obtain ⟨kind, code⟩ | ⟨kind, code⟩ | ⟨kind, code⟩ | ⟨kind, code⟩ | ⟨kind, code⟩ := startKind_cases b <;> rw [code]
  · simpa [FirstThatFails, kind, State.referenceRefusal, State.triggerPassed, firstRefusal, refuseIf] using behind
  · simpa [FirstThatFails, kind, State.referenceRefusal, State.triggerPassed, firstRefusal, refuseIf] using behind
  · cases named : s.lookup b.reference with
    | none => simp [FirstThatFails, kind, State.referenceRefusal, named, firstRefusal]
    | some w =>
      cases w with
      | train k => simp [FirstThatFails, kind, State.referenceRefusal, named, firstRefusal]
      | capture k =>
        cases live : s.capture k with
        | none => simp [FirstThatFails, kind, State.referenceRefusal, named, live, firstRefusal]
        | some c =>
          by_cases limit : c.edgeLimit ≠ 0 ∧ c.edgeLimit < b.edgeNumber.toNat
          · simp [FirstThatFails, kind, State.referenceRefusal, named, live, firstRefusal, limit]
          · by_cases passed : b.edgeNumber.toNat ≤ c.taken
            · simp only [FirstThatFails, kind, State.referenceRefusal, State.triggerPassed, named, live, if_neg limit]
              simp [firstRefusal, refuseIf, limit, passed, live]
            · simp only [FirstThatFails, kind, State.referenceRefusal, State.triggerPassed, named, live, if_neg limit]
              simpa [firstRefusal, refuseIf, limit, passed, live] using behind
  · cases named : s.lookup b.reference with
    | none => simp [FirstThatFails, kind, State.referenceRefusal, named, firstRefusal]
    | some w =>
      cases w with
      | train k =>
        simpa [FirstThatFails, kind, State.referenceRefusal, State.triggerPassed, named, firstRefusal, refuseIf]
          using behind
      | capture k => simp [FirstThatFails, kind, State.referenceRefusal, named, firstRefusal]
  · have two : ¬b.startKind = 2#8 := fun e => by simp [e] at kind
    have three : ¬b.startKind = 3#8 := fun e => by simp [e] at kind
    simpa [FirstThatFails, two, three, State.referenceRefusal, State.triggerPassed,
      firstRefusal, refuseIf] using behind

/-- The start-time check (R47). -/
theorem State.startPast_iff (h : Header) (b : StartTrainBody) (kind : b.startKind.toNat ≤ 3) :
    s.startPast h b = true ↔ b.startKind = 0 ∧ h.flags.getLsbD 0 = false
      ∧ ((b.time.setWidth 48 - s.deviceTime).toNat < 40 ∨ 2 ^ 47 ≤ (b.time.setWidth 48 - s.deviceTime).toNat) := by
  have lead : leadOk s.deviceTime (b.time.setWidth 48) = false ↔
      ((b.time.setWidth 48 - s.deviceTime).toNat < 40 ∨ 2 ^ 47 ≤ (b.time.setWidth 48 - s.deviceTime).toNat) := by
    rw [← Bool.not_eq_true, leadOk_iff]
    omega
  have atTime : startOf b = .atTime ↔ b.startKind = 0 := by
    rw [startOf]
    obtain ⟨k, code⟩ | ⟨k, code⟩ | ⟨k, code⟩ | ⟨k, code⟩ | ⟨k, code⟩ := startKind_cases b <;> rw [code]
    · simp [k]
    · simp [k]
    · simp [k]
    · simp [k]
    · omega
  rw [State.startPast, timeBits_eq, Bool.and_eq_true, Bool.and_eq_true, decide_eq_true_eq, Bool.not_eq_true',
    Bool.not_eq_true', lead, atTime, Header.lateOk]
  tauto

/-- The checks of a START_TRAIN from the tag check on (R126). -/
theorem State.trainChecks_answer {h : Header} {b : StartTrainBody} (fields : ¬trainBad s h b) :
    FirstThatFails (trainChecks s h b) (firstRefusal
      [refuseIf (s.lookup h.tag).isSome .tagInUse, refuseIf s.freeTrain.isNone .noSlot,
        h.outLine.bind fun l => s.lineRefusal (s.line l) (startOf b),
        s.referenceRefusal (startOf b), refuseIf (s.triggerPassed (startOf b)) .triggerPassed,
        refuseIf (s.startPast h b) .startPast]) := by
  obtain ⟨-, -, named, -, -, -, -, start, -⟩ : ¬headerBad h 1 ∧ ¬h.tag = 0 ∧ ¬15 < h.line.toNat
      ∧ ¬b.segmentCount = 0 ∧ ¬8 < b.segmentCount.toNat
      ∧ ¬(∃ w ∈ wordsOf b, w.extractLsb' 30 2 = 3#2 ∨ w.toNat % 2 ^ 30 < 4) ∧ ¬1 < b.endPolicy.toNat
      ∧ ¬startBad b ∧ _ := by simpa only [trainBad, not_or] using fields
  have kind : b.startKind.toNat ≤ 3 := Nat.not_lt.mp fun big => start (.inl big)
  obtain ⟨l, line⟩ := Option.isSome_iff_exists.mp ((Header.isSome_outLine h).mpr named)
  rw [line, Option.bind_some]
  refine firstThatFails_cons (State.lookup_isSome_iff h.tag) fun _ => ?_
  refine firstThatFails_cons State.isNone_freeTrain_iff fun _ => ?_
  refine firstThatFails_two (State.lineRefusal_answer (Header.outLine_eq_some.mp line)) fun _ _ => ?_
  refine State.reference_answer b ?_
  exact firstThatFails_cons (State.startPast_iff h b kind) fun _ => firstThatFails_nil

/-- The answer of every record's checks is that of the first that fails (R126). -/
theorem State.check_answer (i : Fin 4) (c : Submission) : FirstThatFails (checksOf s i c) (s.check i c) := by
  cases c with
  | unknown k h => exact .inl ⟨trivial, rfl⟩
  | nop h => exact firstThatFails_cons (not_ok_iff (Header.fieldsOk_iff h 0)) fun _ => firstThatFails_ring_last h
  | readTime h =>
    exact firstThatFails_cons (not_ok_iff (Header.fieldsOk_iff h 0)) fun _ => firstThatFails_ring_last h
  | defineRing h b =>
    refine firstThatFails_cons (not_ok_iff (defineRingOk_iff h b)) fun fields => firstThatFails_ring h ?_
    have small : b.number.toNat ≤ 3 := Nat.not_lt.mp fun big => fields (.inr (.inr (.inl big)))
    exact firstThatFails_cons (State.ringBusy_iff i b small) fun _ => firstThatFails_nil
  | setOutput h b =>
    refine firstThatFails_cons (not_ok_iff (setOutputOk_iff h b)) fun _ => firstThatFails_ring h ?_
    refine firstThatFails_cons ?_ fun _ => firstThatFails_nil
    simp only [Header.any_outLine, Option.isSome_iff_ne_none]
  | setInput h b =>
    refine firstThatFails_cons (not_ok_iff (setInputOk_iff h b)) fun _ => firstThatFails_ring h ?_
    refine firstThatFails_cons ?_ fun _ => firstThatFails_nil
    simp only [Header.any_inLine, State.inputBusy_iff]
    constructor
    · rintro ⟨l, number, k, c, live, rfl⟩
      exact ⟨k, c, live, number⟩
    · rintro ⟨k, c, live, number⟩
      exact ⟨c.line, number, k, c, live, rfl⟩
  | startTrain h b =>
    exact firstThatFails_cons (not_ok_iff (State.startTrainOk_iff h b)) fun fields =>
      firstThatFails_ring h (State.trainChecks_answer fields)
  | armCapture h b =>
    refine firstThatFails_cons (not_ok_iff (State.armCaptureOk_iff h b)) fun _ => firstThatFails_ring h ?_
    refine firstThatFails_cons (State.lookup_isSome_iff h.tag) fun _ => ?_
    refine firstThatFails_cons State.isNone_freeCapture_iff fun _ => ?_
    refine firstThatFails_cons ?_ fun _ => firstThatFails_nil
    simp only [Header.any_inLine, Bool.not_eq_true']
  | cancel h =>
    refine firstThatFails_cons (not_ok_iff (cancelOk_iff h)) fun _ => firstThatFails_ring h ?_
    exact firstThatFails_cons (State.isNone_lookup_iff h.tag) fun _ => firstThatFails_nil
  | fence h timeout =>
    exact firstThatFails_cons (not_ok_iff (fenceOk_iff h timeout)) fun _ => firstThatFails_ring_last h
  | adjustTime h value =>
    refine firstThatFails_cons (not_ok_iff (adjustTimeOk_iff h value)) fun _ => firstThatFails_ring h ?_
    exact firstThatFails_cons State.anyLive_iff fun _ => firstThatFails_nil

/-- The first condition that fails determines the answer. -/
theorem firstThatFails_unique {l : List (Prop × Status)} {x y : Option Status} (hx : FirstThatFails l x)
    (hy : FirstThatFails l y) : x = y := by
  induction l with
  | nil => exact hx.trans hy.symm
  | cons c rest ih =>
    obtain ⟨fails, rfl⟩ | ⟨passes, hx⟩ := hx
    · obtain ⟨-, rfl⟩ | ⟨passes, -⟩ := hy
      · rfl
      · exact absurd fails passes
    · obtain ⟨fails, -⟩ | ⟨-, hy⟩ := hy
      · exact absurd fails passes
      · exact ih hx hy

/-- The checks answer with a status exactly when the statement's list does. -/
theorem State.check_eq_iff (i : Fin 4) (c : Submission) (x : Option Status) :
    s.check i c = x ↔ FirstThatFails (checksOf s i c) x :=
  ⟨fun e => e ▸ State.check_answer i c, fun h => firstThatFails_unique (State.check_answer i c) h⟩

/-- Settles O25: the answer of the checks, and the record that is only answered. -/
theorem refusedRecordIsOnlyAnswered : Obligations.RefusedRecordIsOnlyAnswered := by
  refine ⟨fun s i c => State.check_answer i c, fun s data i st hf target place check => ?_⟩
  exact congrArg Host.Outcome.next (State.submit_refused hf target place check)

end Sys2Proof.Machine
end

section
/-! PROOFS. Ends of trains and captures (chapters 3 to 6): what an end leaves, how it releases, loses and reports,
and the statements about the last BOUNDARY, the CLOSE and the edges that captures take. -/

namespace Sys2Proof.Machine

set_option Elab.async false

variable {s : State}

/-- Two ways to run down a list agree when they agree on every state of a kind that both keep. -/
theorem foldl_eq_of_kept {α β : Type} {P : α → Prop} {f g : α → β → α}
    (step : ∀ a b, P a → f a b = g a b ∧ P (g a b)) (l : List β) (a : α) (h : P a) :
    l.foldl f a = l.foldl g a ∧ P (l.foldl g a) := by
  induction l generalizing a with
  | nil => exact ⟨rfl, h⟩
  | cons b l ih =>
    obtain ⟨same, kept⟩ := step a b h
    rw [List.foldl_cons, List.foldl_cons, same]
    exact ih _ kept

/-! What an end does -/

/-- The WAITING trains of a kind, oldest first (R97). -/
theorem State.waiters_eq (s : State) (p : StartCondition → Bool) : s.waiters p = oldestWaiting s p := by
  rw [State.waiters, State.trainOrder, oldestWaiting, List.filter_filterMap]
  congr 1
  funext o
  cases o with
  | train j => cases live : s.train j <;> simp [Option.filter, live]
  | capture j => rfl
  | fence => rfl

/-- The report of an end, by the count that is left (R138). -/
theorem State.reportEnd_eq (s : State) : s.reportEnd = fenceTold s := by
  unfold State.reportEnd fenceTold
  cases h : s.fetch with
  | fenced f =>
    by_cases last : f.count ≤ 1 ∧ s.device = .running
    · have zero : f.count - 1 = 0 := by omega
      simp only [zero, true_and, if_pos last, if_pos last.2]
      rfl
    · have more : ¬(f.count - 1 = 0 ∧ s.device = .running) := fun h => last ⟨by omega, h.2⟩
      simp only [if_neg last, if_neg more]
  | idle => rfl
  | reading r => rfl
  | stalled c t => rfl

theorem State.trainEndRecord_eq (s : State) (t : Train) (st : Status) (cascaded : Bool) :
    s.trainEndRecord t st cascaded = trainEndOf s t st cascaded t.repsDone := by
  cases h : t.state <;>
    simp only [State.trainEndRecord, Train.time2, trainEndOf, h, State.blankRecord] <;> rfl

/-- Steps 2 to 6 of the end of a live train (R56). -/
theorem State.closeTrain_of_train {i : Fin 32} {t : Train} (live : s.train i = some t) (st : Status)
    (cascaded : Bool) :
    s.closeTrain i st cascaded = endedTrain s i t st (trainEndOf s t st cascaded t.repsDone) := by
  obtain ⟨free, -⟩ | ⟨u, live', e⟩ := s.closeTrain_cases i st cascaded
  · rw [free] at live
    cases live
  · obtain rfl : u = t := by rw [live'] at live; exact Option.some.inj live
    rw [e, State.trainEndRecord_eq]
    rfl

/-- The end of a live train: its waiters released, and the end reported (R56, R107, R138). -/
theorem State.endTrain_of_train {i : Fin 32} {t : Train} (live : s.train i = some t) (st : Status) :
    s.endTrain i st =
      fenceTold ((oldestWaiting (endedTrain s i t st (trainEndOf s t st false t.repsDone))
        (StartCondition.onEnd t.tag)).foldl State.release
          (endedTrain s i t st (trainEndOf s t st false t.repsDone))) := by
  simp only [State.endTrain, live, State.closeTrain_of_train live, State.waiters_eq, State.reportEnd_eq]

/-- A waiter's offset lies ahead unless it is 0 (R4, R45). -/
theorem isFuture_after_offset (now : Time) {n : Nat} (zero : n ≠ 0) (small : n < 2 ^ 32) :
    isFuture now (after now n) = true :=
  isFuture_after now n (Nat.one_le_iff_ne_zero.mpr zero) (by simp only [Config.horizon]; omega)

/-- A granted request arms the train (R54, R103, R107). -/
theorem State.arm_of_ahead (i : Fin 32) (t : Train) {asked : Time} (ahead : isFuture s.deviceTime asked = true) :
    s.arm i t asked =
      (s.setTrain i (some { t with state := .armed, startTime := some asked })).insert (.train i) .start asked := by
  simp only [State.arm, State.insert, State.request, State.setTrain_deviceTime, ahead, if_true, Option.getD_some]
  rfl

/-- A released train starts now, or is armed for its offset (R107). -/
theorem State.release_eq {j : Fin 32} (small : ∀ u ∈ s.train j, u.start.offset < 2 ^ 32) :
    s.release j = releasedTrain s j := by
  unfold State.release releasedTrain
  cases live : s.train j with
  | none => rfl
  | some u =>
    by_cases zero : u.start.offset = 0
    · simp only [if_pos zero]
      cases first : u.segments[0]? with
      | none => simp only [State.startNow, State.begin, State.enterSegment, first]
      | some g =>
        simp only [State.startNow, State.begin, State.enterSegment, first, State.levelRequest, Line.take_eq]
        rfl
    · simp only [if_neg zero]
      exact s.arm_of_ahead j u (isFuture_after_offset _ zero (small u live))

/-! What an end keeps: every offset stays one of 32 bits -/

theorem offsetsInRange_of_trains {t : State} (h : OffsetsInRange s) (same : t.trains = s.trains) :
    OffsetsInRange t := by
  intro j u live
  rw [State.train, same] at live
  exact h j u live

theorem offsetsInRange_setTrain (h : OffsetsInRange s) (i : Fin 32) {x : Option Train}
    (small : ∀ u ∈ x, u.start.offset < 2 ^ 32) : OffsetsInRange (s.setTrain i x) := by
  intro j u live
  rw [State.train_setTrain] at live
  split at live
  · exact small u live
  · exact h j u live

theorem State.insert_trains (s : State) (o : Owner) (a : Action) (due : Time) :
    (s.insert o a due).trains = s.trains := by
  obtain ⟨-, e⟩ | ⟨-, e⟩ := s.insert_cases o a due <;> rw [e]

theorem offsetsInRange_insert (h : OffsetsInRange s) (o : Owner) (a : Action) (due : Time) :
    OffsetsInRange (s.insert o a due) :=
  offsetsInRange_of_trains h (s.insert_trains o a due)

theorem offsetsInRange_endedTrain (h : OffsetsInRange s) (i : Fin 32) (t : Train) (st : Status) (r : Completion) :
    OffsetsInRange (endedTrain s i t st r) :=
  offsetsInRange_setTrain (offsetsInRange_of_trains h rfl) i fun _ none => nomatch none

theorem offsetsInRange_releasedTrain (h : OffsetsInRange s) (j : Fin 32) : OffsetsInRange (releasedTrain s j) := by
  unfold releasedTrain
  cases live : s.train j with
  | none => exact h
  | some u =>
    have small : u.start.offset < 2 ^ 32 := h j u live
    dsimp only
    split
    · have run := offsetsInRange_setTrain h j
        (x := some { u with state := .running, index := 0, startTime := some s.deviceTime })
        (fun v e => Option.some.inj e ▸ small)
      split
      · exact run
      · refine offsetsInRange_insert ?_ _ _ _
        exact offsetsInRange_of_trains run rfl
    · refine offsetsInRange_insert ?_ _ _ _
      exact offsetsInRange_setTrain h j fun v e => Option.some.inj e ▸ small

theorem State.issueRead_trains (s : State) : s.issueRead.trains = s.trains := by
  obtain ⟨-, e⟩ | ⟨-, e⟩ := s.issueRead_cases <;> rw [e]

theorem fenceTold_trains (s : State) : (fenceTold s).trains = s.trains := by
  unfold fenceTold
  split
  · split
    · rw [State.issueRead_trains]
      rfl
    · rfl
  · rfl

/-- The releases of a list of waiters, one by one (R107). -/
theorem State.foldl_release_eq (h : OffsetsInRange s) (l : List (Fin 32)) :
    l.foldl State.release s = l.foldl releasedTrain s ∧ OffsetsInRange (l.foldl releasedTrain s) :=
  foldl_eq_of_kept (P := OffsetsInRange) (fun _ j h => ⟨State.release_eq (h j), offsetsInRange_releasedTrain h j⟩) l s h

/-- The end of a train with every offset in range, as the claims state it. -/
theorem State.endTrain_eq (h : OffsetsInRange s) {i : Fin 32} {t : Train} (live : s.train i = some t)
    (st : Status) :
    s.endTrain i st = endedAndReleased s i t st (trainEndOf s t st false t.repsDone) := by
  rw [State.endTrain_of_train live, (State.foldl_release_eq (offsetsInRange_endedTrain h i t st _) _).1]
  rfl

theorem offsetsInRange_endedAndReleased (h : OffsetsInRange s) (i : Fin 32) (t : Train) (st : Status)
    (r : Completion) : OffsetsInRange (endedAndReleased s i t st r) :=
  offsetsInRange_of_trains (State.foldl_release_eq (offsetsInRange_endedTrain h i t st r) _).2 (fenceTold_trains _)

theorem State.endTrain_triggerLost (h : OffsetsInRange s) (j : Fin 32) :
    s.endTrain j .triggerLost = lostTrain s j ∧ OffsetsInRange (lostTrain s j) := by
  unfold lostTrain
  cases live : s.train j with
  | none => exact ⟨by simp only [State.endTrain, live], h⟩
  | some u => exact ⟨State.endTrain_eq h live _, offsetsInRange_endedAndReleased h j u _ _⟩

/-- The end of a capture with every offset in range, as the claims state it (R91, R106, R138). -/
theorem State.endCapture_eq (h : OffsetsInRange s) {i : Fin 16} {c : Capture} (live : s.capture i = some c)
    (st : Status) : s.endCapture i st = endedCapture s i c (captureEndOf s c st) := by
  simp only [State.endCapture, live, State.waiters_eq, State.reportEnd_eq]
  rw [(foldl_eq_of_kept (P := OffsetsInRange) (fun _ j h => State.endTrain_triggerLost h j) _ (s.closeCapture i c st)
    (offsetsInRange_of_trains h rfl)).1]
  rfl

/-- Settles O53: the delivered CLOSE ends the capture. -/
theorem closeDeliveredEndsTheWindow : Obligations.CloseDeliveredEndsTheWindow := by
  intro s k c rest due live h
  have live' : ({ s with calendar := rest } : State).capture k = some c := live
  have offsets : OffsetsInRange ({ s with calendar := rest } : State) := offsetsInRange_of_trains h rfl
  exact (congrArg Host.Outcome.next (State.deliver_of_dueNow due fun r => r.endCapture k .deadline)).trans
    (congrArg Host.Outcome.next (State.endCapture_eq offsets live' .deadline))

/-! The last BOUNDARY -/

/-- No train waits on a tag that no start condition names. -/
theorem oldestWaiting_eq_nil {p : StartCondition → Bool} (none : ∀ j, ∀ u ∈ s.train j, p u.start = false) :
    oldestWaiting s p = [] := by
  rw [oldestWaiting, List.filterMap_eq_nil_iff]
  intro o _
  cases o with
  | train j =>
    refine if_neg ?_
    cases live : s.train j with
    | none => simp
    | some u => simp [none j u live]
  | capture j => rfl
  | fence => rfl

/-- An end in cascade that finds no waiter is a plain end (R65, R111). -/
theorem State.endTrainCascade_of_no_waiter {i : Fin 32} {t : Train} (live : s.train i = some t) (st : Status)
    (none : ∀ j, ∀ u ∈ s.train j, u.start.onEnd t.tag = false) :
    s.endTrainCascade i st = s.endTrain i st := by
  have noOrder : s.cascadeOrder 32 t.tag = [] := by
    rw [State.cascadeOrder, State.waiters_eq, oldestWaiting_eq_nil none, List.flatMap_nil]
  have noneLeft : ∀ j, ∀ u ∈ (s.closeTrain i st false).train j, u.start.onEnd t.tag = false := by
    rw [State.closeTrain_of_train live]
    intro j u there
    rw [endedTrain, State.train_setTrain] at there
    split at there
    · cases there
    · exact none j u there
  simp only [State.endTrainCascade, State.endTrain, live, noOrder, List.foldl_nil, State.waiters_eq,
    oldestWaiting_eq_nil noneLeft]

/-- After the last segment the repetition is counted, and the train ends or begins again (R51 to R53). -/
theorem State.boundary_of_last {i : Fin 32} {t : Train} (live : s.train i = some t)
    (last : t.segments.length ≤ t.index + 1) :
    s.boundary i =
      let u := { t with repsDone := t.repsAfter }
      let s' := s.setTrain i (some u)
      if t.state = .stopping then
        if t.stopKind = .cascade then s'.endTrainCascade i .stopped else s'.endTrain i .stopped
      else if t.repeatCount ≠ 0 ∧ t.repsAfter = t.repeatCount then s'.endTrain i .ok
      else s'.enterSegment i u 0 := by
  simp only [State.boundary, live, if_neg (Nat.not_lt.mpr last)]

theorem State.setTrain_setTrain (s : State) (i : Fin 32) (x y : Option Train) :
    (s.setTrain i x).setTrain i y = s.setTrain i y := by
  simp [State.setTrain]

/-- A train whose repetition has just been counted ends as it would have before, but for its record. -/
theorem endedTrain_setTrain (s : State) (i : Fin 32) (t : Train) (n : Nat) (st : Status) (r : Completion) :
    endedTrain (s.setTrain i (some { t with repsDone := n })) i { t with repsDone := n } st r =
      endedTrain s i t st r :=
  State.setTrain_setTrain (((((s.leave (.train i)).dropTag (.train i)).setLine t.line
    ((s.line t.line).trainEnded i st t.endPolicy)).stageFinal t.ring r)) i (some { t with repsDone := n }) none

theorem endedAndReleased_setTrain (s : State) (i : Fin 32) (t : Train) (n : Nat) (st : Status) (r : Completion) :
    endedAndReleased (s.setTrain i (some { t with repsDone := n })) i { t with repsDone := n } st r =
      endedAndReleased s i t st r := by
  simp only [endedAndReleased, endedTrain_setTrain]

/-- The end of a train at its last BOUNDARY, its repetition counted (R52, R56). -/
theorem State.endTrain_counted (h : OffsetsInRange s) {i : Fin 32} {t : Train} (live : s.train i = some t)
    (n : Nat) (st : Status) :
    (s.setTrain i (some { t with repsDone := n })).endTrain i st =
      endedAndReleased s i t st (trainEndOf s t st false n) := by
  have counted : OffsetsInRange (s.setTrain i (some { t with repsDone := n })) :=
    offsetsInRange_setTrain h i fun u e => Option.some.inj e ▸ h i t live
  rw [State.endTrain_eq counted (State.train_setTrain_self ..), ← endedAndReleased_setTrain s i t n st]
  rfl

theorem Train.repsAfter_eq (t : Train) :
    t.repsAfter = if t.repeatCount = 0 then min (t.repsDone + 1) (2 ^ 32 - 1) else t.repsDone + 1 := rfl

/-- Settles O47: the state, the stop kind and the repeat count decide. -/
theorem lastBoundaryRepeatsOrEnds : Obligations.LastBoundaryRepeatsOrEnds := by
  intro s k t g rest due live last first done l
  have live' : ({ s with calendar := rest } : State).train k = some t := live
  have delivered := exec_boundaryDelivered_of_dueNow due
  rw [State.boundary_of_last live' last] at delivered
  rw [delivered]
  refine ⟨?_, ?_⟩
  · intro running more
    have again : ¬(t.repeatCount ≠ 0 ∧ t.repsAfter = t.repeatCount) := by
      rintro ⟨limited, reached⟩
      rw [Train.repsAfter_eq, if_neg limited] at reached
      exact more.elim limited fun h => h reached
    have notStopping : t.state ≠ .stopping := by simp [running]
    dsimp only
    rw [if_neg notStopping, if_neg again, State.enterSegment_of_segment _ k (by exact first), State.levelRequest,
      Line.take_eq, State.setTrain_setTrain]
    rfl
  · intro h
    have offsets : OffsetsInRange ({ s with calendar := rest } : State) := offsetsInRange_of_trains h rfl
    constructor
    · intro running limited reached
      have ends : t.repeatCount ≠ 0 ∧ t.repsAfter = t.repeatCount :=
        ⟨limited, by rw [Train.repsAfter_eq, if_neg limited]; exact reached⟩
      have notStopping : t.state ≠ .stopping := by simp [running]
      dsimp only
      rw [if_neg notStopping, if_pos ends]
      exact congrArg Host.Outcome.next (State.endTrain_counted offsets live' t.repsAfter .ok)
    · intro stopping plain
      dsimp only
      rw [if_pos stopping]
      refine congrArg Host.Outcome.next (Eq.trans ?_ (State.endTrain_counted offsets live' t.repsAfter .stopped))
      obtain plain | none := plain
      · rw [if_neg plain]
      · split
        · refine State.endTrainCascade_of_no_waiter (State.train_setTrain_self ..) .stopped fun j u there => ?_
          rw [State.train_setTrain] at there
          split at there
          · exact (Option.some.inj there) ▸ none k t live
          · exact none j u there
        · rfl

end Sys2Proof.Machine
end

section
/-! PROOFS. The edges that captures take (chapter 4), and the end that hands a line to its successor. -/

namespace Sys2Proof.Machine

set_option Elab.async false

variable {s : State}

/-! Starts keep all but the trains, the lines and the calendar -/

/-- `t` is what starts of trains can make of `s`: trains, lines and entries change, and nothing else. -/
def StartedFrom (s t : State) : Prop :=
  t = { s with trains := t.trains, lines := t.lines, calendar := t.calendar }

theorem StartedFrom.refl (s : State) : StartedFrom s s := rfl

theorem StartedFrom.trans {a b c : State} (ab : StartedFrom a b) (bc : StartedFrom b c) : StartedFrom a c := by
  unfold StartedFrom at *
  rw [bc, ab]

theorem StartedFrom.insert {t : State} (h : StartedFrom s t) (o : Owner) (a : Action) (due : Time) :
    StartedFrom s (t.insert o a due) := by
  obtain ⟨-, e⟩ | ⟨-, e⟩ := t.insert_cases o a due
  · rw [e]
    exact h.trans rfl
  · rw [e]
    exact h

theorem startedFrom_enterSegment (s : State) (i : Fin 32) (t : Train) (k : Nat) :
    StartedFrom s (s.enterSegment i t k) := by
  unfold State.enterSegment
  split
  · exact rfl
  · refine StartedFrom.insert ?_ _ _ _
    exact rfl

theorem startedFrom_arm (s : State) (i : Fin 32) (t : Train) (asked : Time) : StartedFrom s (s.arm i t asked) := by
  obtain ⟨ahead, -⟩ | ⟨-, past⟩ := s.request_cases (.train i) .start asked
  · rw [s.arm_of_ahead i t ahead]
    refine StartedFrom.insert ?_ _ _ _
    exact rfl
  · simp only [State.arm, past]
    exact startedFrom_enterSegment ..

theorem startedFrom_release (s : State) (i : Fin 32) : StartedFrom s (s.release i) := by
  unfold State.release
  split
  · exact .refl s
  · split
    · exact startedFrom_enterSegment ..
    · exact startedFrom_arm ..

theorem startedFrom_fire (stamp : Time) (s : State) (i : Fin 32) : StartedFrom s (State.fire stamp s i) := by
  unfold State.fire
  split
  · exact .refl s
  · exact startedFrom_arm ..

theorem startedFrom_foldl {f : State → Fin 32 → State} (h : ∀ s i, StartedFrom s (f s i)) (l : List (Fin 32))
    (s : State) : StartedFrom s (l.foldl f s) := by
  induction l generalizing s with
  | nil => exact .refl s
  | cons i l ih => exact (h s i).trans (ih _)

theorem StartedFrom.captures {t : State} (h : StartedFrom s t) : t.captures = s.captures :=
  (congrArg State.captures h :)

theorem StartedFrom.head {t : State} (h : StartedFrom s t) : t.head = s.head := (congrArg State.head h :)

theorem StartedFrom.deviceTime {t : State} (h : StartedFrom s t) : t.deviceTime = s.deviceTime :=
  (congrArg State.deviceTime h :)

/-! Fired trains keep their offsets -/

theorem offsetsInRange_enterSegment (h : OffsetsInRange s) (i : Fin 32) (t : Train) (k : Nat)
    (small : t.start.offset < 2 ^ 32) : OffsetsInRange (s.enterSegment i t k) := by
  have set : OffsetsInRange (s.setTrain i (some { t with index := k })) :=
    offsetsInRange_setTrain h i fun u e => Option.some.inj e ▸ small
  unfold State.enterSegment
  split
  · exact set
  · refine offsetsInRange_insert ?_ _ _ _
    exact offsetsInRange_of_trains set rfl

theorem offsetsInRange_arm (h : OffsetsInRange s) (i : Fin 32) (t : Train) (asked : Time)
    (small : t.start.offset < 2 ^ 32) : OffsetsInRange (s.arm i t asked) := by
  obtain ⟨ahead, -⟩ | ⟨-, past⟩ := s.request_cases (.train i) .start asked
  · rw [s.arm_of_ahead i t ahead]
    refine offsetsInRange_insert ?_ _ _ _
    exact offsetsInRange_setTrain h i fun u e => Option.some.inj e ▸ small
  · simp only [State.arm, past]
    exact offsetsInRange_enterSegment h i _ _ small

theorem offsetsInRange_fire (stamp : Time) (h : OffsetsInRange s) (i : Fin 32) :
    OffsetsInRange (State.fire stamp s i) := by
  unfold State.fire
  split
  · exact h
  · exact offsetsInRange_arm h i _ _ (h i _ ‹_›)

theorem offsetsInRange_foldl_fire (stamp : Time) (h : OffsetsInRange s) (l : List (Fin 32)) :
    OffsetsInRange (l.foldl (State.fire stamp) s) :=
  (foldl_eq_of_kept (P := OffsetsInRange) (g := State.fire stamp)
    (fun _ i h => ⟨rfl, offsetsInRange_fire stamp h i⟩) l s h).2

/-! Taking and passing an edge -/

/-- An edge is taken in an open window, in a selected direction and not before the window opened (R86). -/
theorem Capture.takes_iff (x : Capture) (c : Candidate) :
    x.takes c.firstSeen (Direction.to c.level) = true ↔ TakesEdge x c := by
  have selected : x.edgeSelect.takes (Direction.to c.level) = true ↔
      x.edgeSelect = .both ∨ x.edgeSelect = .rising ∧ c.level = .high ∨ x.edgeSelect = .falling ∧ c.level = .low := by
    cases x.edgeSelect <;> cases c.level <;> simp [EdgeSelect.takes, Direction.to]
  have late : notBefore x.effectiveOpen c.firstSeen = true ↔ (c.firstSeen - x.effectiveOpen).toNat < 2 ^ 47 := by
    rw [notBefore, decide_eq_true_eq, Time.ahead, Config.horizon]
    omega
  simp only [Capture.takes, Bool.and_eq_true, decide_eq_true_eq, selected, late, and_assoc]

theorem Direction.to_eq (v : Level) : Direction.to v = if v = .high then .rising else .falling := by
  cases v <;> rfl

theorem State.setCapture_setCapture (s : State) (i : Fin 16) (x y : Option Capture) :
    (s.setCapture i x).setCapture i y = s.setCapture i y := by
  simp [State.setCapture]

/-- The capture with an edge counted, not yet reported (R87). -/
def Capture.counted (x : Capture) (stamp : Time) : Capture :=
  { x with taken := x.taken + 1, firstStamp := some (x.firstStamp.getD stamp) }

/-- An edge just counted is the capture's last when its limit, or the ceiling of its count, is reached (R87). -/
theorem Capture.limitReached_counted (x : Capture) (stamp : Time) :
    (x.counted stamp).limitReached = true ↔
      x.taken + 1 = (if x.edgeLimit = 0 then 2 ^ 32 - 1 else x.edgeLimit) := by
  by_cases zero : x.edgeLimit = 0
  · have reached : (x.counted stamp).limitReached = decide (x.taken + 1 = 2 ^ 32 - 1) := if_pos zero
    rw [reached, decide_eq_true_eq, if_pos zero]
  · have reached : (x.counted stamp).limitReached = decide (x.taken + 1 = x.edgeLimit) := if_neg zero
    rw [reached, decide_eq_true_eq, if_neg zero]

/-- The dropped records of a capture after an edge whose record is staged or not (R88). -/
def Capture.droppedAfter (x : Capture) (staged : Prop) [Decidable staged] : Nat :=
  if x.reportMode = .each ∧ ¬staged then min (x.dropped + 1) 65535 else x.dropped

/-- The record of an edge has its place: it is asked for, and its ring has one (R88). -/
abbrev EdgeStaged (s : State) (x : Capture) : Prop := x.reportMode = .each ∧ (s.ring x.ring).account < 64

/-- The capture with an edge counted and reported (R87, R88). -/
def Capture.reported (x : Capture) (s : State) (stamp : Time) : Capture :=
  { x.counted stamp with dropped := x.droppedAfter (EdgeStaged s x) }

/-- The state with an edge counted and reported, before any train is fired (R87, R88). -/
def edgeReported (s : State) (k : Fin 16) (x : Capture) (c : Candidate) : State :=
  if EdgeStaged s x then (s.setCapture k (some (x.reported s c.firstSeen))).stageFree x.ring
    { kind := .captureEdge, status := .ok, late := false, lateOpen := x.lateOpen, cascade := false
      direction := if c.level = .high then .rising else .falling
      mask := 0, tag := x.tag, sqHead := s.head, time := c.firstSeen, time2 := s.deviceTime
      count := x.taken + 1, dropped := x.dropped }
  else s.setCapture k (some (x.reported s c.firstSeen))

/-- Without a drop the edge is only counted. -/
theorem Capture.reported_of_kept {x : Capture} (kept : ¬(x.reportMode = .each ∧ ¬EdgeStaged s x)) (stamp : Time) :
    x.reported s stamp = x.counted stamp := by
  rw [Capture.reported, Capture.droppedAfter, if_neg kept]
  rfl

/-- The report of an edge: none in SUMMARY mode, and staged or dropped in EACH (R88). -/
theorem State.reportEdge_cases (s : State) (i : Fin 16) (c : Capture) (stamp : Time) (d : Direction) :
    (c.reportMode = .summary ∧ s.reportEdge i c stamp d = s)
      ∨ (c.reportMode = .each ∧ (s.ring c.ring).hasPlace = true
        ∧ s.reportEdge i c stamp d = s.stageFree c.ring (s.captureEdgeRecord c stamp d))
      ∨ (c.reportMode = .each ∧ (s.ring c.ring).hasPlace = false
        ∧ s.reportEdge i c stamp d =
          s.setCapture i (some { c with dropped := min (c.dropped + 1) Config.shortCeiling })) := by
  unfold State.reportEdge
  split
  · exact .inl ⟨‹_›, rfl⟩
  · split
    · exact .inr (.inl ⟨‹_›, ‹_›, rfl⟩)
    · exact .inr (.inr ⟨‹_›, eq_false_of_ne_true ‹_›, rfl⟩)

/-- The edge just counted is reported (R88). -/
theorem State.reportEdge_counted (s : State) (k : Fin 16) (x : Capture) (c : Candidate) :
    (s.setCapture k (some (x.counted c.firstSeen))).reportEdge k (x.counted c.firstSeen) c.firstSeen
      (Direction.to c.level) = edgeReported s k x c := by
  obtain summary | ⟨each, staged⟩ | ⟨each, dropped⟩ := State.reportEdge_cases
    (s.setCapture k (some (x.counted c.firstSeen))) k (x.counted c.firstSeen) c.firstSeen (Direction.to c.level)
  · have notEach : x.reportMode ≠ .each := by
      have mode : x.reportMode = .summary := summary.1
      simp [mode]
    rw [summary.2, edgeReported, if_neg fun staged => notEach staged.1,
      Capture.reported_of_kept fun drop => notEach drop.1]
  · have place : EdgeStaged s x := ⟨each, of_decide_eq_true staged.1⟩
    rw [staged.2, edgeReported, if_pos place, Capture.reported_of_kept fun drop => drop.2 place, Direction.to_eq]
    rfl
  · have drops : x.reportMode = .each ∧ ¬EdgeStaged s x := ⟨each, fun staged => of_decide_eq_false dropped.1 staged.2⟩
    rw [dropped.2, edgeReported, if_neg drops.2, Capture.reported, Capture.droppedAfter, if_pos drops,
      State.setCapture_setCapture]
    rfl

/-- `edgeTaken`, with its report told by `edgeReported`. -/
theorem edgeTaken_eq (s : State) (k : Fin 16) (x : Capture) (c : Candidate) :
    edgeTaken s k x c =
      let fired := (oldestWaiting (edgeReported s k x c) (StartCondition.onEdge x.tag (x.taken + 1))).foldl
        (State.fire c.firstSeen) (edgeReported s k x c)
      if x.taken + 1 = (if x.edgeLimit = 0 then 2 ^ 32 - 1 else x.edgeLimit) then
        endedCapture fired k (x.reported s c.firstSeen) (captureEndOf s (x.reported s c.firstSeen) .countReached)
      else fired := rfl

theorem edgeReported_trains (s : State) (k : Fin 16) (x : Capture) (c : Candidate) :
    (edgeReported s k x c).trains = s.trains := by
  unfold edgeReported
  split <;> rfl

theorem edgeReported_capture (s : State) (k : Fin 16) (x : Capture) (c : Candidate) :
    (edgeReported s k x c).capture k =
      some (x.reported s c.firstSeen) := by
  unfold edgeReported
  split
  · exact State.capture_setCapture_self ..
  · exact State.capture_setCapture_self ..

theorem edgeReported_clock (s : State) (k : Fin 16) (x : Capture) (c : Candidate) :
    (edgeReported s k x c).head = s.head ∧ (edgeReported s k x c).deviceTime = s.deviceTime := by
  unfold edgeReported
  split <;> exact ⟨rfl, rfl⟩

theorem captureEndOf_congr {t : State} (head : t.head = s.head) (now : t.deviceTime = s.deviceTime) (c : Capture)
    (st : Status) : captureEndOf t c st = captureEndOf s c st := by
  simp only [captureEndOf, head, now]

/-- An edge taken is counted, reported and fired, and may be the capture's last (R87). -/
theorem State.takeEdge_counted (s : State) (k : Fin 16) (x : Capture) (stamp : Time) (d : Direction) :
    s.takeEdge k x stamp d =
      let s2 := (s.setCapture k (some (x.counted stamp))).reportEdge k (x.counted stamp) stamp d
      let s3 := (s2.waiters (StartCondition.onEdge x.tag (x.taken + 1))).foldl (State.fire stamp) s2
      if (x.counted stamp).limitReached then s3.endCapture k .countReached else s3 := rfl

/-- The taking of an edge, as the claims state it (R87, R88, R103). -/
theorem State.takeEdge_eq (h : OffsetsInRange s) (k : Fin 16) (x : Capture) (c : Candidate) :
    s.takeEdge k x c.firstSeen (Direction.to c.level) = edgeTaken s k x c := by
  have reported := s.reportEdge_counted k x c
  have offsets := offsetsInRange_foldl_fire c.firstSeen (offsetsInRange_of_trains h (edgeReported_trains s k x c))
    (oldestWaiting (edgeReported s k x c) (StartCondition.onEdge x.tag (x.taken + 1)))
  have starts := startedFrom_foldl (startedFrom_fire c.firstSeen)
    (oldestWaiting (edgeReported s k x c) (StartCondition.onEdge x.tag (x.taken + 1))) (edgeReported s k x c)
  have live := (congrArg (fun v => v[k]) starts.captures).trans (edgeReported_capture s k x c)
  have clock := edgeReported_clock s k x c
  rw [edgeTaken_eq, State.takeEdge_counted, reported]
  dsimp only
  rw [State.waiters_eq]
  by_cases last : x.taken + 1 = (if x.edgeLimit = 0 then 2 ^ 32 - 1 else x.edgeLimit)
  · rw [if_pos ((x.limitReached_counted c.firstSeen).mpr last), if_pos last]
    refine (State.endCapture_eq offsets live .countReached).trans ?_
    rw [captureEndOf_congr (starts.head.trans clock.1) (starts.deviceTime.trans clock.2)]
  · rw [if_neg fun reached => last ((x.limitReached_counted c.firstSeen).mp reached), if_neg last]

theorem offsetsInRange_endedCapture (h : OffsetsInRange s) (k : Fin 16) (c : Capture) (r : Completion) :
    OffsetsInRange (endedCapture s k c r) := by
  have lost := (foldl_eq_of_kept (P := OffsetsInRange) (fun _ j h => State.endTrain_triggerLost h j)
    (oldestWaiting (((s.leave (.capture k)).dropTag (.capture k)).stageFinal c.ring r)
      (StartCondition.onCapture c.tag))
    (((s.leave (.capture k)).dropTag (.capture k)).stageFinal c.ring r) (offsetsInRange_of_trains h rfl)).2
  refine offsetsInRange_of_trains (s := List.foldl lostTrain _ _) lost ?_
  rw [endedCapture, fenceTold_trains]
  rfl

theorem offsetsInRange_edgeTaken (h : OffsetsInRange s) (k : Fin 16) (x : Capture) (c : Candidate) :
    OffsetsInRange (edgeTaken s k x c) := by
  have offsets := offsetsInRange_foldl_fire c.firstSeen (offsetsInRange_of_trains h (edgeReported_trains s k x c))
    (oldestWaiting (edgeReported s k x c) (StartCondition.onEdge x.tag (x.taken + 1)))
  rw [edgeTaken_eq]
  by_cases last : x.taken + 1 = (if x.edgeLimit = 0 then 2 ^ 32 - 1 else x.edgeLimit)
  · simp only [if_pos last]
    exact offsetsInRange_endedCapture offsets k _ _
  · simp only [if_neg last]
    exact offsets

/-- A capture given an edge takes it or passes it (R79, R86). -/
theorem State.giveEdge_eq (h : OffsetsInRange s) (i : Fin 8) (c : Candidate) (k : Fin 16) :
    State.giveEdge i c.firstSeen (Direction.to c.level) s k = edgeGiven i c s k
      ∧ OffsetsInRange (edgeGiven i c s k) := by
  unfold State.giveEdge edgeGiven
  cases live : s.capture k with
  | none => exact ⟨rfl, h⟩
  | some x =>
    by_cases takes : x.line = i ∧ TakesEdge x c
    · have takes' : x.line = i ∧ x.takes c.firstSeen (Direction.to c.level) = true :=
        ⟨takes.1, (x.takes_iff c).mpr takes.2⟩
      simp only [if_pos takes, if_pos takes']
      exact ⟨State.takeEdge_eq h k x c, offsetsInRange_edgeTaken h k x c⟩
    · have passes : ¬(x.line = i ∧ x.takes c.firstSeen (Direction.to c.level) = true) :=
        fun t => takes ⟨t.1, (x.takes_iff c).mp t.2⟩
      simp only [if_neg takes, if_neg passes]
      exact ⟨trivial, h⟩

theorem State.offer_eq (h : OffsetsInRange s) (i : Fin 8) (c : Candidate) :
    s.offer i c.firstSeen (Direction.to c.level) = edgeOffered s i c :=
  (foldl_eq_of_kept (P := OffsetsInRange) (fun _ k h => State.giveEdge_eq h i c k) s.captureOrder s h).1

theorem State.setInput_setInput (s : State) (i : Fin 8) (x y : InputLine) :
    (s.setInput i x).setInput i y = s.setInput i y := by
  simp [State.setInput]

/-- EDGE_CONFIRMED at the confirmation tick: the line confirmed, and the edge offered (R74, R79). -/
theorem exec_edgeConfirmed {i : Fin 8} {c : Candidate} (now : ConfirmedNow s i c) :
    exec (.edgeConfirmed i) s = .next ((s.setInput i (confirmedLine s i c)).offer i c.firstSeen
      (Direction.to c.level)) := by
  have due : s.confirmDue i = some c := (State.confirmDue_eq_some i c).mpr now
  refine congrArg Host.Outcome.next ?_
  simp only [due, State.confirm, State.input_setInput_self, State.setInput_setInput]
  rfl

/-- Settles O57: the edge is offered with every offset in range. -/
theorem capturesTakeOrPassTheEdge : Obligations.CapturesTakeOrPassTheEdge := by
  intro s i c now h
  have offsets : OffsetsInRange (s.setInput i (confirmedLine s i c)) := offsetsInRange_of_trains h rfl
  rw [exec_edgeConfirmed now, State.offer_eq offsets]

/-- Captures that all pass an edge leave everything as it was (R86). -/
theorem State.foldl_giveEdge_of_pass (i : Fin 8) (c : Candidate) (l : List (Fin 16))
    (pass : ∀ k ∈ l, ∀ x ∈ s.capture k, x.line = i → ¬TakesEdge x c) :
    l.foldl (State.giveEdge i c.firstSeen (Direction.to c.level)) s = s := by
  induction l with
  | nil => rfl
  | cons k l ih =>
    have passed : State.giveEdge i c.firstSeen (Direction.to c.level) s k = s := by
      unfold State.giveEdge
      cases live : s.capture k with
      | none => rfl
      | some x =>
        refine if_neg ?_
        rintro ⟨line, takes⟩
        exact pass k List.mem_cons_self x live line ((x.takes_iff c).mp takes)
    rw [List.foldl_cons, passed]
    exact ih fun j hj => pass j (List.mem_cons_of_mem k hj)

/-- Settles O56: every capture passes, or no candidate is confirmed. -/
theorem edgeConfirmedSetsTheFilteredLevel : Obligations.EdgeConfirmedSetsTheFilteredLevel := by
  intro s i c stands
  constructor
  · intro now pass
    rw [exec_edgeConfirmed now]
    exact congrArg Host.Outcome.next (State.foldl_giveEdge_of_pass i c _ pass)
  · intro notNow
    have none : s.confirmDue i = none := by
      rw [Option.eq_none_iff_forall_ne_some]
      intro d due
      have now := (State.confirmDue_eq_some i d).mp due
      obtain rfl : d = c := by
        have same := now.2.1.symm.trans stands
        exact Option.some.inj same
      exact notNow now
    exact congrArg Host.Outcome.next (by simp only [none])

/-! The sampling of a pin -/

/-- The filter at a line whose raw level differs from the one last sampled (R74). -/
theorem State.sample_of_ne {i : Fin 8} {pin seen : Level} (new : seen ≠ (s.input i).raw) :
    s.sample i pin seen = (s.setInput i { s.input i with pin := pin, raw := seen, sampled := true }).filter i :=
  if_neg new

/-- A disabled line only follows its pin (R74). -/
theorem State.filter_of_disabled {i : Fin 8} (disabled : (s.input i).enabled = false) : s.filter i = s :=
  if_pos disabled

/-- A return to the filtered level drops the candidate (R74). -/
theorem State.filter_of_back {i : Fin 8} (enabled : (s.input i).enabled = true)
    (back : (s.input i).raw = (s.input i).filtered) :
    s.filter i = s.setInput i { s.input i with candidate := none } := by
  simp only [State.filter, enabled, Bool.true_eq_false, if_false, back, if_true]

/-- A change starts a candidate, which a filter of length 0 confirms at once (R74). -/
theorem State.filter_of_change {i : Fin 8} (enabled : (s.input i).enabled = true)
    (away : (s.input i).raw ≠ (s.input i).filtered) (none : (s.input i).candidate = none) :
    s.filter i =
      if (s.input i).filterLength = 0 then s.confirm i { level := (s.input i).raw, firstSeen := s.deviceTime }
      else s.setInput i
        { s.input i with candidate := some { level := (s.input i).raw, firstSeen := s.deviceTime } } := by
  simp only [State.filter, enabled, Bool.true_eq_false, if_false, away, none]

/-- Settles O55: reset, sampled before, at the sampled level, and the filter's four cases. -/
theorem inputLevelChangeMeetsTheFilter : Obligations.InputLevelChangeMeetsTheFilter := by
  intro s i v seen
  refine ⟨fun held => congrArg Host.Outcome.next (if_pos held), ?_, ?_, ?_⟩
  · intro free sampled
    refine congrArg Host.Outcome.next ?_
    simp only [State.pinChange, free, Bool.false_eq_true, if_false, sampled, if_true]
  · intro free fresh same
    refine congrArg Host.Outcome.next ?_
    simp only [State.pinChange, free, fresh, Bool.false_eq_true, if_false]
    exact if_pos same
  · intro free fresh new
    have met : exec (.inputLevelChange i v) s = .next
        ((s.setInput i { s.input i with pin := v, raw := seen, sampled := true }).filter i) := by
      refine congrArg Host.Outcome.next ?_
      simp only [State.pinChange, free, fresh, Bool.false_eq_true, if_false]
      exact State.sample_of_ne new
    rw [met]
    refine ⟨?_, ?_, ?_, ?_⟩
    · intro disabled
      rw [State.filter_of_disabled (by simpa using disabled)]
    · intro enabled back
      rw [State.filter_of_back (by simpa using enabled) (by simpa using back), State.input_setInput_self,
        State.setInput_setInput]
    · intro enabled away none long
      rw [State.filter_of_change (by simpa using enabled) (by simpa using away) (by simpa using none),
        State.input_setInput_self, if_neg long, State.setInput_setInput]
      rfl
    · intro enabled away none zero h
      rw [State.filter_of_change (by simpa using enabled) (by simpa using away) (by simpa using none),
        State.input_setInput_self, if_pos zero, State.confirm, State.input_setInput_self, State.setInput_setInput]
      have offsets : OffsetsInRange (s.setInput i
          { s.input i with pin := v, raw := seen, sampled := true, filtered := seen, candidate := Option.none }) :=
        offsetsInRange_of_trains h rfl
      exact congrArg Host.Outcome.next (State.offer_eq offsets i { level := seen, firstSeen := s.deviceTime })

end Sys2Proof.Machine
end

section
/-! PROOFS. The end that hands a line to its successor (chapters 2, 3 and 5). -/

namespace Sys2Proof.Machine

set_option Elab.async false

variable {s : State}

/-! What the end of a train leaves, table by table -/

theorem endedTrain_train (s : State) (i j : Fin 32) (t : Train) (st : Status) (r : Completion) :
    (endedTrain s i t st r).train j = if i = j then none else s.train j := State.train_setTrain ..

theorem endedTrain_line (s : State) (i : Fin 32) (l : Fin 16) (t : Train) (st : Status) (r : Completion) :
    (endedTrain s i t st r).line l =
      if t.line = l then (s.line t.line).trainEnded i st t.endPolicy else s.line l :=
  State.line_setLine (s := (s.leave (.train i)).dropTag (.train i)) ..

theorem endedTrain_ring (s : State) (i : Fin 32) (m : Fin 4) (t : Train) (st : Status) (r : Completion) :
    (endedTrain s i t st r).ring m =
      if t.ring = m then
        { s.ring t.ring with staged := (s.ring t.ring).staged ++ [r], owed := (s.ring t.ring).owed - 1 }
      else s.ring m :=
  State.ring_setRing (s := ((s.leave (.train i)).dropTag (.train i)).setLine t.line
    ((s.line t.line).trainEnded i st t.endPolicy)) ..

/-- The WAITING train of a kind that a work is, if it is one (R97). -/
def State.waiterAt (s : State) (p : StartCondition → Bool) : Owner → Option (Fin 32)
  | .train j => if (s.train j).any (fun u => decide (u.state = .waiting) && p u.start) then some j else none
  | .capture _ => none
  | .fence => none

theorem oldestWaiting_eq (s : State) (p : StartCondition → Bool) :
    oldestWaiting s p = s.admission.filterMap (s.waiterAt p) := by
  unfold oldestWaiting
  congr 1
  funext o
  cases o <;> rfl

theorem State.waiterAt_eq_some {p : StartCondition → Bool} {o : Owner} {j : Fin 32} :
    s.waiterAt p o = some j ↔
      o = .train j ∧ ∃ u, s.train j = some u ∧ u.state = .waiting ∧ p u.start = true := by
  cases o with
  | train i =>
    cases live : s.train i with
    | none =>
      simp only [State.waiterAt, live, Option.any_none, Bool.false_eq_true, if_false, reduceCtorEq, false_iff]
      rintro ⟨same, u, there, -⟩
      rw [← Owner.train.inj same, live] at there
      cases there
    | some u =>
      by_cases waits : u.state = .waiting ∧ p u.start = true
      · simp only [State.waiterAt, live, Option.any_some, waits.1, waits.2, decide_true, Bool.and_self, if_true,
          Option.some.injEq, Owner.train.injEq]
        exact ⟨fun same => ⟨same, u, same ▸ live, waits⟩, And.left⟩
      · have not : (decide (u.state = .waiting) && p u.start) = false :=
          eq_false_of_ne_true fun both => waits (by simpa using both)
        simp only [State.waiterAt, live, Option.any_some, not, Bool.false_eq_true, if_false, reduceCtorEq, false_iff]
        rintro ⟨same, v, there, w⟩
        rw [← Owner.train.inj same, live] at there
        exact waits (Option.some.inj there ▸ w)
  | capture i => simp [State.waiterAt]
  | fence => simp [State.waiterAt]

/-- The WAITING trains of a kind stand on the admission list and meet the condition (R97). -/
theorem mem_oldestWaiting {p : StartCondition → Bool} {j : Fin 32} :
    j ∈ oldestWaiting s p ↔
      Owner.train j ∈ s.admission ∧ ∃ u, s.train j = some u ∧ u.state = .waiting ∧ p u.start = true := by
  simp only [oldestWaiting_eq, List.mem_filterMap, State.waiterAt_eq_some]
  exact ⟨fun ⟨_, listed, same, waits⟩ => ⟨same ▸ listed, waits⟩, fun ⟨listed, waits⟩ => ⟨_, listed, rfl, waits⟩⟩

/-- The one WAITING train of a kind is the list of them, for every work stands on the admission list once. -/
theorem oldestWaiting_eq_singleton {p : StartCondition → Bool} {j : Fin 32} {u : Train}
    (once : s.admission.Nodup) (listed : Owner.train j ∈ s.admission) (live : s.train j = some u)
    (waits : u.state = .waiting) (meets : p u.start = true)
    (only : ∀ m, m ≠ j → ∀ w ∈ s.train m, p w.start = false) : oldestWaiting s p = [j] := by
  obtain ⟨before, after, split⟩ := List.append_of_mem listed
  rw [split, List.nodup_append, List.nodup_cons] at once
  obtain ⟨-, ⟨notAfter, -⟩, apart⟩ := once
  have self : s.waiterAt p (.train j) = some j := State.waiterAt_eq_some.mpr ⟨rfl, u, live, waits, meets⟩
  have other (o : Owner) (h : o ≠ .train j) : s.waiterAt p o = none := by
    rw [Option.eq_none_iff_forall_ne_some]
    intro m waiter
    obtain ⟨rfl, w, there, -, met⟩ := State.waiterAt_eq_some.mp waiter
    rw [only m (fun e => h (congrArg Owner.train e)) w there] at met
    cases met
  rw [oldestWaiting_eq, split, List.filterMap_append, List.filterMap_cons_some self,
    List.filterMap_eq_nil_iff.mpr fun o h => other o (apart o h _ List.mem_cons_self),
    List.filterMap_eq_nil_iff.mpr fun o h => other o (fun e => notAfter (e ▸ h))]
  rfl

/-- An insertion changes the calendar alone. -/
theorem State.insert_eq (s : State) (o : Owner) (a : Action) (due : Time) :
    s.insert o a due = { s with calendar := (s.insert o a due).calendar } := by
  obtain ⟨-, e⟩ | ⟨-, e⟩ := s.insert_cases o a due <;> rw [e]

/-- A granted insertion stands in the calendar (R13). -/
theorem State.mem_calendar_insert (s : State) (o : Owner) (a : Action) {due : Time}
    (ahead : isFuture s.deviceTime due = true) :
    { due := due, owner := o, action := a } ∈ (s.insert o a due).calendar := by
  obtain ⟨-, e⟩ | ⟨past, -⟩ := s.insert_cases o a due
  · rw [e]
    exact (mem_placeEntry ..).mpr (.inl rfl)
  · rw [ahead] at past
    cases past

/-- Without a waiting fence an end reports to no one (R138). -/
theorem fenceTold_of_none (none : s.fetch.waiting = none) : fenceTold s = s := by
  unfold fenceTold
  split
  · rename_i f waits
    rw [waits] at none
    cases none
  · rfl

/-- A waiter of offset 0 runs from this tick, with its segment 0 on its line (R107). -/
theorem releasedTrain_now {j : Fin 32} {u : Train} {g : Segment} (live : s.train j = some u)
    (zero : u.start.offset = 0) (first : u.segments[0]? = some g) :
    releasedTrain s j =
      (((s.setTrain j (some { u with state := .running, index := 0, startTime := some s.deviceTime })).setLine u.line
        { s.line u.line with
          present := g.level
          modulator := if g.level = LineLevel.carrier then
            some { position := 0, high := decide (0 < (s.line u.line).highWidth) } else none }).insert
        (.train j) .boundary (s.deviceTime + BitVec.ofNat 48 g.duration)) := by
  simp only [releasedTrain, live, zero, if_true, first]

/-- A waiter of offset 0 that is released, table by table (R107). -/
theorem releasedTrain_now_train {j : Fin 32} {u : Train} {g : Segment} (live : s.train j = some u)
    (zero : u.start.offset = 0) (first : u.segments[0]? = some g) (m : Fin 32) :
    (releasedTrain s j).train m =
      if j = m then some { u with state := .running, index := 0, startTime := some s.deviceTime } else s.train m := by
  rw [releasedTrain_now live zero first, State.insert_eq]
  exact State.train_setTrain ..

theorem releasedTrain_now_line {j : Fin 32} {u : Train} {g : Segment} (live : s.train j = some u)
    (zero : u.start.offset = 0) (first : u.segments[0]? = some g) (m : Fin 16) :
    (releasedTrain s j).line m =
      if u.line = m then
        { s.line u.line with
          present := g.level
          modulator := if g.level = LineLevel.carrier then
            some { position := 0, high := decide (0 < (s.line u.line).highWidth) } else none }
      else s.line m := by
  rw [releasedTrain_now live zero first, State.insert_eq]
  exact State.line_setLine (s := s.setTrain j _) ..

theorem releasedTrain_now_entry {j : Fin 32} {u : Train} {g : Segment} (live : s.train j = some u)
    (zero : u.start.offset = 0) (first : u.segments[0]? = some g) (some : 1 ≤ g.duration)
    (short : g.duration < 2 ^ 47) :
    { due := s.deviceTime + BitVec.ofNat 48 g.duration, owner := .train j, action := .boundary } ∈
      (releasedTrain s j).calendar := by
  rw [releasedTrain_now live zero first]
  exact State.mem_calendar_insert _ _ _
    (isFuture_after s.deviceTime g.duration some (by simp only [Config.horizon]; omega))

/-- A release changes trains, lines and entries alone. -/
theorem startedFrom_releasedTrain {j : Fin 32} (h : ∀ u ∈ s.train j, u.start.offset < 2 ^ 32) :
    StartedFrom s (releasedTrain s j) := by
  rw [← State.release_eq h]
  exact startedFrom_release s j

/-- An owner's end makes its successor the owner, and leaves no successor (R37). -/
theorem Line.trainEnded_owner {l : Line} {i : Fin 32} (owner : l.owner = some i) (st : Status) (p : EndPolicy) :
    (l.trainEnded i st p).owner = l.successor ∧ (l.trainEnded i st p).successor = none := by
  rw [Line.trainEnded, if_pos owner]
  exact ⟨rfl, rfl⟩

/-- The end of a train whose repetition has just been counted (R52, R56). -/
theorem State.endTrain_setTrain {i : Fin 32} {t : Train} (n : Nat) (st : Status) :
    (s.setTrain i (some { t with repsDone := n })).endTrain i st =
      fenceTold ((oldestWaiting (endedTrain s i t st (trainEndOf s t st false n))
        (StartCondition.onEnd t.tag)).foldl State.release (endedTrain s i t st (trainEndOf s t st false n))) := by
  rw [State.endTrain_of_train (State.train_setTrain_self ..), ← endedTrain_setTrain s i t n st]
  rfl

/-- A RUNNING train that has reached its repeat count ends OK (R52). -/
theorem State.boundary_of_reached {i : Fin 32} {t : Train} (live : s.train i = some t)
    (last : t.segments.length ≤ t.index + 1) (running : t.state = .running) (limited : t.repeatCount ≠ 0)
    (reached : t.repsDone + 1 = t.repeatCount) :
    s.boundary i = (s.setTrain i (some { t with repsDone := t.repsDone + 1 })).endTrain i .ok := by
  have counted : t.repsAfter = t.repsDone + 1 := by rw [Train.repsAfter_eq, if_neg limited]
  have notStopping : t.state ≠ .stopping := by simp [running]
  rw [State.boundary_of_last live last]
  dsimp only
  rw [if_neg notStopping, counted, if_pos ⟨limited, reached⟩]

/-- The OK end of the train of slot `k`, for which the train of slot `j` alone waits, at offset 0. -/
theorem exec_boundaryDelivered_hands_over {k j : Fin 32} {t u : Train} {rest : List Entry}
    (due : DueNow s (.train k) .boundary rest) (live : s.train k = some t) (there : s.train j = some u)
    (apart : k ≠ j) (last : t.segments.length ≤ t.index + 1) (running : t.state = .running)
    (limited : t.repeatCount ≠ 0) (reached : t.repsDone + 1 = t.repeatCount) (waits : u.state = .waiting)
    (start : u.start = .afterEnd t.tag 0) (listed : Owner.train j ∈ s.admission) (once : s.admission.Nodup)
    (free : s.fetch.waiting = none) (only : ∀ m, m ≠ j → ∀ w ∈ s.train m, w.start.onEnd t.tag = false) :
    exec (.boundaryDelivered k) s = .next (releasedTrain (endedTrain { s with calendar := rest } k t .ok
      (trainEndOf s t .ok false (t.repsDone + 1))) j) := by
  have live' : ({ s with calendar := rest } : State).train k = some t := live
  rw [exec_boundaryDelivered_of_dueNow due, State.boundary_of_reached live' last running limited reached,
    State.endTrain_setTrain]
  refine congrArg Host.Outcome.next ?_
  change (fun e => fenceTold ((oldestWaiting e (StartCondition.onEnd t.tag)).foldl State.release e))
    (endedTrain { s with calendar := rest } k t .ok (trainEndOf s t .ok false (t.repsDone + 1))) = _
  generalize ended : endedTrain { s with calendar := rest } k t .ok (trainEndOf s t .ok false (t.repsDone + 1)) = e
  have train (m : Fin 32) : e.train m = if k = m then none else s.train m := by
    rw [← ended]
    exact endedTrain_train ..
  have thereStill : e.train j = some u := (train j).trans ((if_neg apart).trans there)
  have one : oldestWaiting e (StartCondition.onEnd t.tag) = [j] := by
    have admission : e.admission = s.admission.filter fun w => !decide (w = .train k) := by
      rw [← ended]
      rfl
    refine oldestWaiting_eq_singleton (admission ▸ once.filter _) ?_ thereStill waits
      (by simp [start, StartCondition.onEnd]) ?_
    · rw [admission, List.mem_filter]
      exact ⟨listed, by simpa using Ne.symm apart⟩
    · intro m other w live
      rw [train] at live
      split at live
      · cases live
      · exact only m other w live
  have small : ∀ w ∈ e.train j, w.start.offset < 2 ^ 32 := by
    intro w live
    obtain rfl : u = w := Option.some.inj (thereStill.symm.trans live)
    simp [start, StartCondition.offset]
  have told : (releasedTrain e j).fetch.waiting = none := by
    rw [startedFrom_releasedTrain small, ← ended]
    exact free
  beta_reduce
  rw [one, List.foldl_cons, List.foldl_nil, State.release_eq small, fenceTold_of_none told]

/-- Settles O48: the tables after the owner's end, and after the release on them. -/
theorem successorTakesTheLineAtOnce : Obligations.SuccessorTakesTheLineAtOnce := by
  intro s k j t u g rest due live there apart last running limited reached waits start sameLine first owner successor
    listed once free only
  have zero : u.start.offset = 0 := by simp [start, StartCondition.offset]
  refine ⟨_, exec_boundaryDelivered_hands_over due live there apart last running limited reached waits start listed
    once free only, ?_⟩
  generalize ended : endedTrain { s with calendar := rest } k t .ok (trainEndOf s t .ok false (t.repsDone + 1)) = e
  have train (m : Fin 32) : e.train m = if k = m then none else s.train m := by
    rw [← ended]
    exact endedTrain_train ..
  have line (m : Fin 16) :
      e.line m = if t.line = m then (s.line t.line).trainEnded k .ok t.endPolicy else s.line m := by
    rw [← ended]
    exact endedTrain_line ..
  have thereStill : e.train j = some u := (train j).trans ((if_neg apart).trans there)
  have small : ∀ w ∈ e.train j, w.start.offset < 2 ^ 32 := by
    intro w live
    obtain rfl : u = w := Option.some.inj (thereStill.symm.trans live)
    simp [zero]
  have starts := startedFrom_releasedTrain small
  have trainOf := releasedTrain_now_train thereStill zero first
  have lineOf := releasedTrain_now_line thereStill zero first
  have now : e.deviceTime = s.deviceTime := by
    rw [← ended]
    rfl
  have handed : (e.line t.line).owner = some j ∧ (e.line t.line).successor = none := by
    rw [line, if_pos rfl, ← successor]
    exact Line.trainEnded_owner owner .ok t.endPolicy
  rw [sameLine] at lineOf
  refine ⟨?_, ?_, ?_, ?_, ?_, ?_, ?_, ?_, ?_, ?_, ?_⟩
  · rw [lineOf, if_pos rfl]
    exact handed.1
  · rw [lineOf, if_pos rfl]
    exact handed.2
  · rw [lineOf, if_pos rfl]
  · rw [trainOf, if_neg (Ne.symm apart), train, if_pos rfl]
  · rw [trainOf, if_pos rfl, now]
  · have ring : (releasedTrain e j).ring t.ring = e.ring t.ring := by
      rw [starts]
      rfl
    rw [ring, ← ended, endedTrain_ring, if_pos rfl]
    rfl
  · intro some short
    rw [← now]
    exact releasedTrain_now_entry thereStill zero first some short
  · intro m other
    rw [lineOf, if_neg (Ne.symm other), line, if_neg (Ne.symm other)]
  · intro m notK notJ
    rw [trainOf, if_neg (Ne.symm notJ), train, if_neg (Ne.symm notK)]
  · rw [starts, ← ended]
    rfl
  · rw [starts, ← ended]
    rfl

end Sys2Proof.Machine
end

section
/-! PROOFS. CANCEL (chapters 3, 4 and 6): what the ends that it brings about leave unchanged, and that they keep
clear of the place reserved for its answer. -/

namespace Sys2Proof.Machine

set_option Elab.async false

variable {s : State}

/-! What ends leave unchanged -/

/-- `t` is what ends of works can make of `s` while no fence waits: entries, list places, tags, slots, lines and the
rings' records and owed counts change, and nothing else. -/
def EndedFrom (s t : State) : Prop :=
  t = { s with
    calendar := t.calendar, admission := t.admission, trains := t.trains, lines := t.lines
    captures := t.captures, tagMap := t.tagMap, rings := t.rings }
  ∧ ∀ k, (t.ring k).state = (s.ring k).state

theorem EndedFrom.refl (s : State) : EndedFrom s s := ⟨rfl, fun _ => rfl⟩

theorem EndedFrom.trans {a b c : State} (ab : EndedFrom a b) (bc : EndedFrom b c) : EndedFrom a c := by
  refine ⟨?_, fun k => (bc.2 k).trans (ab.2 k)⟩
  have e := bc.1
  rw [ab.1] at e
  exact e

theorem StartedFrom.endedFrom {t : State} (h : StartedFrom s t) : EndedFrom s t := by
  refine ⟨?_, fun k => ?_⟩ <;> rw [h]
  rfl

theorem EndedFrom.fetch {t : State} (h : EndedFrom s t) : t.fetch = s.fetch := (congrArg State.fetch h.1 :)

theorem EndedFrom.head {t : State} (h : EndedFrom s t) : t.head = s.head := (congrArg State.head h.1 :)

theorem EndedFrom.deviceTime {t : State} (h : EndedFrom s t) : t.deviceTime = s.deviceTime :=
  (congrArg State.deviceTime h.1 :)

/-- An answer reads the tick, head and the rings' states, which ends leave as they are (R129). -/
theorem EndedFrom.answer {t : State} (h : EndedFrom s t) (st : Status) (tag : Tag) (n : Nat) :
    t.answer st tag n = s.answer st tag n := by
  simp only [State.answer, State.faultMask_congr h.2, h.head, h.deviceTime]

theorem State.ring_stageFinal_state (s : State) (i k : Fin 4) (c : Completion) :
    ((s.stageFinal i c).ring k).state = (s.ring k).state := by
  rw [State.ring_stageFinal]
  split
  · subst i
    rfl
  · rfl

theorem endedFrom_endedTrain (s : State) (i : Fin 32) (t : Train) (st : Status) (r : Completion) :
    EndedFrom s (endedTrain s i t st r) :=
  ⟨rfl, fun k => State.ring_stageFinal_state (((s.leave (.train i)).dropTag (.train i)).setLine t.line _) t.ring k r⟩

theorem endedFrom_closeTrain (s : State) (i : Fin 32) (st : Status) (cascaded : Bool) :
    EndedFrom s (s.closeTrain i st cascaded) := by
  cases live : s.train i with
  | none => simpa only [State.closeTrain, live] using EndedFrom.refl s
  | some t =>
    rw [State.closeTrain_of_train live]
    exact endedFrom_endedTrain ..

theorem endedFrom_closeCapture (s : State) (i : Fin 16) (c : Capture) (st : Status) :
    EndedFrom s (s.closeCapture i c st) :=
  ⟨rfl, fun k => State.ring_stageFinal_state ((s.leave (.capture i)).dropTag (.capture i)) c.ring k _⟩

theorem State.reportEnd_of_free (free : s.fetch.waiting = none) : s.reportEnd = s := by
  rw [State.reportEnd_eq, fenceTold_of_none free]

theorem EndedFrom.free {t : State} (h : EndedFrom s t) (free : s.fetch.waiting = none) : t.fetch.waiting = none := by
  rw [h.fetch, free]

theorem EndedFrom.reportEnd {t : State} (h : EndedFrom s t) (free : s.fetch.waiting = none) :
    EndedFrom s t.reportEnd := by
  rwa [State.reportEnd_of_free (h.free free)]

theorem EndedFrom.setCapture {t : State} (h : EndedFrom s t) (i : Fin 16) (x : Option Capture) :
    EndedFrom s (t.setCapture i x) := h.trans ⟨rfl, fun _ => rfl⟩

theorem endedFrom_foldl {α : Type} {f : State → α → State}
    (step : ∀ s i, s.fetch.waiting = none → EndedFrom s (f s i)) (l : List α) (s : State)
    (free : s.fetch.waiting = none) : EndedFrom s (l.foldl f s) := by
  induction l generalizing s with
  | nil => exact .refl s
  | cons i l ih => exact (step s i free).trans (ih _ ((step s i free).free free))

theorem endedFrom_endTrain (s : State) (i : Fin 32) (st : Status) (free : s.fetch.waiting = none) :
    EndedFrom s (s.endTrain i st) := by
  unfold State.endTrain
  split
  · exact .refl s
  · have closed := endedFrom_closeTrain s i st false
    exact (closed.trans (startedFrom_foldl startedFrom_release _ _).endedFrom).reportEnd free

theorem endedFrom_endCascaded (s : State) (i : Fin 32) (free : s.fetch.waiting = none) :
    EndedFrom s (s.endCascaded i) := (endedFrom_closeTrain s i .cancelled true).reportEnd free

theorem endedFrom_endTrainCascade (s : State) (i : Fin 32) (st : Status) (free : s.fetch.waiting = none) :
    EndedFrom s (s.endTrainCascade i st) := by
  unfold State.endTrainCascade
  split
  · exact .refl s
  · exact ((endedFrom_foldl endedFrom_endCascaded _ s free).trans (endedFrom_closeTrain _ i st false)).reportEnd free

theorem endedFrom_endCapture (s : State) (i : Fin 16) (st : Status) (free : s.fetch.waiting = none) :
    EndedFrom s (s.endCapture i st) := by
  unfold State.endCapture
  split
  · exact .refl s
  · rename_i c live
    have closed := endedFrom_closeCapture s i c st
    have lost := closed.trans (endedFrom_foldl (fun s j free => endedFrom_endTrain s j .triggerLost free)
      ((s.closeCapture i c st).waiters (StartCondition.onCapture c.tag)) _ (closed.free free))
    exact (lost.setCapture i none).reportEnd free

/-! A place that is owed beside -/

/-- `a` is `b` but that ring `i` owes one place more there, as far as the ends since have not used it up. -/
def Spare (i : Fin 4) (a b : State) : Prop :=
  ∃ m, m - 1 = (b.ring i).owed ∧ a = b.setRing i { b.ring i with owed := m }

theorem spare_reserve (s : State) (i : Fin 4) : Spare i (s.reserve i) s := ⟨_, Nat.add_sub_cancel .., rfl⟩

/-- A final staged in the spare place is a record staged without one. -/
theorem Spare.stageFinal_self {i : Fin 4} {a b : State} (h : Spare i a b) (c : Completion) :
    a.stageFinal i c = b.stageFree i c := by
  obtain ⟨m, spare, rfl⟩ := h
  rw [State.stageFinal, State.stageFree, State.ring_setRing_self, State.setRing_setRing, spare]

/-- A change that reads and writes no ring keeps the spare place. -/
theorem Spare.apart {i : Fin 4} {a b : State} (h : Spare i a b) {f : State → State}
    (moves : ∀ s x, f (s.setRing i x) = (f s).setRing i x) (keeps : ∀ s, (f s).ring i = s.ring i) :
    Spare i (f a) (f b) := by
  obtain ⟨m, spare, rfl⟩ := h
  exact ⟨m, by rw [keeps, spare], by rw [moves, keeps]⟩

theorem Spare.stageFinal {i : Fin 4} {a b : State} (h : Spare i a b) (j : Fin 4) (c : Completion) :
    Spare i (a.stageFinal j c) (b.stageFinal j c) := by
  obtain ⟨m, spare, rfl⟩ := h
  by_cases same : i = j
  · subst j
    refine ⟨m - 1, by rw [State.ring_stageFinal, if_pos rfl, spare], ?_⟩
    simp only [State.stageFinal, State.ring_setRing_self, State.setRing_setRing]
  · refine ⟨m, by rw [State.ring_stageFinal, if_neg (Ne.symm same), spare], ?_⟩
    simp only [State.stageFinal, State.ring_setRing_of_ne _ i j _ same,
      State.ring_setRing_of_ne _ j i _ (Ne.symm same)]
    exact State.setRing_comm same _ _

theorem Spare.of_same {i : Fin 4} {a b : State} (h : Spare i a b) :
    a.trains = b.trains ∧ a.captures = b.captures ∧ a.admission = b.admission ∧ a.lines = b.lines
      ∧ a.head = b.head ∧ a.deviceTime = b.deviceTime ∧ a.fetch = b.fetch := by
  obtain ⟨m, -, rfl⟩ := h
  exact ⟨rfl, rfl, rfl, rfl, rfl, rfl, rfl⟩

/-- The state with other rings and captures. -/
def State.withTables (s : State) (r : Vector Ring 4) (c : Vector (Option Capture) 16) : State :=
  { s with rings := r, captures := c }

theorem State.insert_withTables (s : State) (r : Vector Ring 4) (c : Vector (Option Capture) 16) (o : Owner)
    (a : Action) (due : Time) : (s.withTables r c).insert o a due = (s.insert o a due).withTables r c := by
  obtain ⟨ahead, e⟩ | ⟨past, e⟩ := s.insert_cases o a due
  · obtain ⟨-, e'⟩ | ⟨past, -⟩ := (s.withTables r c).insert_cases o a due
    · rw [e, e']
      rfl
    · exact absurd (ahead.symm.trans past) Bool.noConfusion
  · obtain ⟨ahead, -⟩ | ⟨-, e'⟩ := (s.withTables r c).insert_cases o a due
    · exact absurd (ahead.symm.trans past) Bool.noConfusion
    · rw [e, e']

theorem State.enterSegment_withTables (s : State) (r : Vector Ring 4) (c : Vector (Option Capture) 16) (j : Fin 32)
    (t : Train) (k : Nat) : (s.withTables r c).enterSegment j t k = (s.enterSegment j t k).withTables r c := by
  unfold State.enterSegment
  split
  · rfl
  · rename_i g _
    exact State.insert_withTables ((s.setTrain j (some { t with index := k })).levelRequest t.line g.level) r c ..

theorem State.arm_withTables (s : State) (r : Vector Ring 4) (c : Vector (Option Capture) 16) (j : Fin 32)
    (t : Train) (asked : Time) : (s.withTables r c).arm j t asked = (s.arm j t asked).withTables r c := by
  by_cases ahead : isFuture s.deviceTime asked = true
  · rw [s.arm_of_ahead j t ahead, (s.withTables r c).arm_of_ahead j t ahead]
    exact State.insert_withTables (s.setTrain j (some { t with state := .armed, startTime := some asked })) r c ..
  · have past : s.request (.train j) .start asked = none := if_neg ahead
    have past' : (s.withTables r c).request (.train j) .start asked = none := if_neg ahead
    simp only [State.arm, past, past']
    exact State.enterSegment_withTables ..

/-- A release reads no ring and no capture, and changes none. -/
theorem State.release_withTables (s : State) (r : Vector Ring 4) (c : Vector (Option Capture) 16) (j : Fin 32) :
    (s.withTables r c).release j = (s.release j).withTables r c := by
  unfold State.release
  rw [show (s.withTables r c).train j = s.train j from rfl]
  split
  · rfl
  · split
    · exact State.enterSegment_withTables ..
    · exact State.arm_withTables ..

theorem State.release_setRing (s : State) (i : Fin 4) (x : Ring) (j : Fin 32) :
    (s.setRing i x).release j = (s.release j).setRing i x := by
  refine (State.release_withTables s (s.rings.set i x) s.captures j).trans ?_
  rw [startedFrom_release s j]
  rfl

theorem State.release_setCapture (s : State) (i : Fin 16) (x : Option Capture) (j : Fin 32) :
    (s.setCapture i x).release j = (s.release j).setCapture i x := by
  refine (State.release_withTables s s.rings (s.captures.set i x) j).trans ?_
  rw [startedFrom_release s j]
  rfl

theorem StartedFrom.ring {t : State} (h : StartedFrom s t) (i : Fin 4) : t.ring i = s.ring i := by
  rw [h]
  rfl

theorem Spare.release {i : Fin 4} {a b : State} (h : Spare i a b) (j : Fin 32) : Spare i (a.release j) (b.release j) :=
  h.apart (fun s x => s.release_setRing i x j) fun s => (startedFrom_release s j).ring i

theorem Spare.foldl {α : Type} {i : Fin 4} {f : State → α → State}
    (step : ∀ a b j, b.fetch.waiting = none → Spare i a b → Spare i (f a j) (f b j))
    (keeps : ∀ b j, b.fetch.waiting = none → (f b j).fetch.waiting = none) (l : List α) {a b : State}
    (free : b.fetch.waiting = none) (h : Spare i a b) : Spare i (l.foldl f a) (l.foldl f b) := by
  induction l generalizing a b with
  | nil => exact h
  | cons j l ih => exact ih (keeps b j free) (step a b j free h)

theorem Spare.waiters {i : Fin 4} {a b : State} (h : Spare i a b) (p : StartCondition → Bool) :
    a.waiters p = b.waiters p := by
  obtain ⟨m, -, rfl⟩ := h
  rfl

theorem Spare.endedTrain {i : Fin 4} {a b : State} (h : Spare i a b) (j : Fin 32) (t : Train) (st : Status)
    (r : Completion) : Spare i (endedTrain a j t st r) (endedTrain b j t st r) := by
  have left : Spare i ((a.leave (.train j)).dropTag (.train j)) ((b.leave (.train j)).dropTag (.train j)) :=
    h.apart (f := fun s => (s.leave (.train j)).dropTag (.train j)) (fun _ _ => rfl) fun _ => rfl
  have told := left.apart (f := fun s => s.setLine t.line ((s.line t.line).trainEnded j st t.endPolicy))
    (fun _ _ => rfl) fun _ => rfl
  exact (told.stageFinal t.ring r).apart (f := fun s => s.setTrain j none) (fun _ _ => rfl) fun _ => rfl

theorem Spare.closeTrain {i : Fin 4} {a b : State} (h : Spare i a b) (j : Fin 32) (st : Status) (cascaded : Bool) :
    Spare i (a.closeTrain j st cascaded) (b.closeTrain j st cascaded) := by
  have same : a.train j = b.train j := by
    obtain ⟨m, -, rfl⟩ := h
    rfl
  cases live : b.train j with
  | none => simpa only [State.closeTrain, same, live] using h
  | some t =>
    have record : trainEndOf a t st cascaded t.repsDone = trainEndOf b t st cascaded t.repsDone := by
      obtain ⟨m, -, rfl⟩ := h
      rfl
    rw [State.closeTrain_of_train live, State.closeTrain_of_train (same.trans live), record]
    exact h.endedTrain j t st _

theorem Spare.reportEnd {i : Fin 4} {a b : State} (h : Spare i a b) (free : b.fetch.waiting = none) :
    Spare i a.reportEnd b.reportEnd := by
  have free' : a.fetch.waiting = none := by
    obtain ⟨m, -, rfl⟩ := h
    exact free
  rwa [State.reportEnd_of_free free, State.reportEnd_of_free free']

theorem Spare.endTrain {i : Fin 4} {a b : State} (free : b.fetch.waiting = none) (h : Spare i a b) (j : Fin 32)
    (st : Status) : Spare i (a.endTrain j st) (b.endTrain j st) := by
  have same : a.train j = b.train j := by
    obtain ⟨m, -, rfl⟩ := h
    rfl
  have closed := h.closeTrain j st false
  have closedFree := (endedFrom_closeTrain b j st false).free free
  unfold State.endTrain
  rw [same]
  split
  · exact h
  · dsimp only
    rw [closed.waiters]
    refine Spare.reportEnd (Spare.foldl (fun a b j _ h => h.release j)
      (fun b j free => (startedFrom_release b j).endedFrom.free free) _ closedFree closed) ?_
    exact (startedFrom_foldl startedFrom_release _ _).endedFrom.free closedFree

theorem Spare.cascadeOrder {i : Fin 4} {a b : State} (h : Spare i a b) (n : Nat) (g : Tag) :
    a.cascadeOrder n g = b.cascadeOrder n g := by
  obtain ⟨m, -, rfl⟩ := h
  induction n generalizing g with
  | zero => rfl
  | succ n ih =>
    simp only [State.cascadeOrder, State.setRing_train, ih]
    rfl

theorem Spare.endTrainCascade {i : Fin 4} {a b : State} (free : b.fetch.waiting = none) (h : Spare i a b)
    (j : Fin 32) (st : Status) : Spare i (a.endTrainCascade j st) (b.endTrainCascade j st) := by
  have same : a.train j = b.train j := by
    obtain ⟨m, -, rfl⟩ := h
    rfl
  unfold State.endTrainCascade
  rw [same]
  split
  · exact h
  · rename_i t live
    have ended : Spare i ((a.cascadeOrder 32 t.tag).foldl State.endCascaded a)
        ((b.cascadeOrder 32 t.tag).foldl State.endCascaded b) := by
      rw [h.cascadeOrder]
      exact Spare.foldl (fun a b j free h => (h.closeTrain j .cancelled true).reportEnd
          ((endedFrom_closeTrain b j .cancelled true).free free))
        (fun b j free => (endedFrom_endCascaded b j free).free free) _ free h
    have endedFree := (endedFrom_foldl endedFrom_endCascaded (b.cascadeOrder 32 t.tag) b free).free free
    exact (ended.closeTrain j st false).reportEnd ((endedFrom_closeTrain _ j st false).free endedFree)

theorem Spare.endCapture {i : Fin 4} {a b : State} (free : b.fetch.waiting = none) (h : Spare i a b) (j : Fin 16)
    (st : Status) : Spare i (a.endCapture j st) (b.endCapture j st) := by
  have same : a.capture j = b.capture j := by
    obtain ⟨m, -, rfl⟩ := h
    rfl
  unfold State.endCapture
  rw [same]
  split
  · exact h
  · rename_i c live
    have record : a.captureEndRecord c st = b.captureEndRecord c st := by
      obtain ⟨m, -, rfl⟩ := h
      rfl
    have closed : Spare i (a.closeCapture j c st) (b.closeCapture j c st) := by
      unfold State.closeCapture
      rw [record]
      exact (h.apart (f := fun s => (s.leave (.capture j)).dropTag (.capture j)) (fun _ _ => rfl)
        fun _ => rfl).stageFinal c.ring _
    have closedFree := (endedFrom_closeCapture b j c st).free free
    dsimp only
    rw [closed.waiters]
    have lost := Spare.foldl (f := fun r j => r.endTrain j .triggerLost)
      (fun a b j free h => h.endTrain free j .triggerLost)
      (fun b j free => (endedFrom_endTrain b j .triggerLost free).free free)
      ((b.closeCapture j c st).waiters (StartCondition.onCapture c.tag)) closedFree closed
    have lostFree := (endedFrom_foldl (fun s j free => endedFrom_endTrain s j .triggerLost free)
      ((b.closeCapture j c st).waiters (StartCondition.onCapture c.tag)) _ closedFree).free closedFree
    exact (lost.apart (f := fun s => s.setCapture j none) (fun _ _ => rfl) fun _ => rfl).reportEnd lostFree

/-! CANCEL -/

/-- An accepted CANCEL whose ends keep clear of the place of its answer (R135). -/
theorem State.submit_cancel_ends (hf : s.Fetching) {h : Header} {i : Fin 4} {w : Work} (grants : s.Grants h i)
    (flags : h.flags = 0 ∨ h.flags = 2 ∨ h.flags = 4 ∨ h.flags = 6) (reserved : h.reserved = 0) (tag : h.tag ≠ 0)
    (named : s.lookup h.tag = some w) {t : State} (does : Spare i ((s.accepted.reserve i).doCancel h) t)
    (ends : EndedFrom s.accepted t) :
    s.submit (.cancel h) =
      (t.stageFree i (s.consumed.answer .ok h.tag s.admissionCounter.toNat)).issueRead := by
  have check := State.check_cancel grants (cancelOk_of_flags flags reserved tag) named
  have accept : s.submit (.cancel h) = (((s.accepted.reserve i).doCancel h).stageCmdDone i .ok h.tag s.deviceTime
      s.admissionCounter.toNat).issueRead :=
    State.submit_accepted hf (c := .cancel h) grants check
  have record : ((s.accepted.reserve i).doCancel h).cmdDoneRecord .ok h.tag s.deviceTime s.admissionCounter.toNat =
      s.consumed.answer .ok h.tag s.admissionCounter.toNat := by
    have mask : ((s.accepted.reserve i).doCancel h).faultMask = s.consumed.faultMask := by
      refine State.faultMask_congr fun k => Eq.trans ?_ (ends.2 k)
      obtain ⟨m, -, e⟩ := does
      rw [e, State.ring_setRing]
      split
      · subst i
        rfl
      · rfl
    have clock := does.of_same
    simp only [State.cmdDoneRecord, State.blankRecord, State.answer, mask, clock.2.2.2.2.1, clock.2.2.2.2.2.1,
      ends.head, ends.deviceTime]
    rfl
  rw [accept, State.stageCmdDone, does.stageFinal_self, record]

/-- Settles O22: the capture's end keeps clear of the answer's place. -/
theorem cancelEndsTheCapture : Obligations.CancelEndsTheCapture := by
  intro s h i k c hf grants flags reserved tag named live offsets
  have free : s.accepted.fetch.waiting = none := rfl
  have does : (s.accepted.reserve i).doCancel h = (s.accepted.reserve i).endCapture k .cancelled := by
    have named' : (s.accepted.reserve i).lookup h.tag = some (.capture k) := named
    simp only [State.doCancel, named']
  have spare := (spare_reserve s.accepted i).endCapture free k .cancelled
  have ends := endedFrom_endCapture s.accepted k .cancelled free
  have live' : s.accepted.capture k = some c := live
  have offsets' : OffsetsInRange s.accepted := offsetsInRange_of_trains offsets rfl
  refine congrArg Host.Outcome.next ((State.submit_cancel_ends hf grants flags reserved tag named
    (does ▸ spare) ends).trans ?_)
  rw [State.endCapture_eq offsets' live']
  rfl

/-- A CANCEL that ends its train at once: IMMEDIATE, or before its start (R63, R64). -/
theorem State.doCancel_of_ends {h : Header} {k : Fin 32} {t : Train} (named : s.lookup h.tag = some (.train k))
    (live : s.train k = some t)
    (now : h.cancelMode = 0 ∨ t.state = .waiting ∨ t.state = .armed) :
    s.doCancel h = s.cancelNow k h.cascade := by
  by_cases mode : h.cancelMode = 0
  · simp only [State.doCancel, named, if_pos mode]
  · simp only [State.doCancel, named, if_neg mode, State.cancelAtPeriodEnd, live]
    obtain immediate | waiting | armed := now
    · exact absurd immediate mode
    · simp only [waiting]
    · simp only [armed]

/-- Settles O21: the train's end keeps clear of the answer's place. -/
theorem cancelImmediateEndsTheTrain : Obligations.CancelImmediateEndsTheTrain := by
  intro s h i k t hf grants kind reserved tag named live offsets plain
  have flags : h.flags = 0 ∨ h.flags = 2 ∨ h.flags = 4 ∨ h.flags = 6 := by
    obtain flags | flags | ⟨flags | flags, -⟩ := kind <;> simp [flags]
  have now : h.cancelMode = 0 ∨ t.state = .waiting ∨ t.state = .armed := by
    obtain flags | flags | ⟨-, before⟩ := kind
    · exact .inl (Header.cancelMode_of_immediate (.inl flags))
    · exact .inl (Header.cancelMode_of_immediate (.inr flags))
    · exact .inr before
  have live' : s.accepted.train k = some t := live
  have does : (s.accepted.reserve i).doCancel h = (s.accepted.reserve i).endTrain k .cancelled := by
    have named' : (s.accepted.reserve i).lookup h.tag = some (.train k) := named
    have there : (s.accepted.reserve i).train k = some t := live
    rw [State.doCancel_of_ends named' there now]
    obtain ⟨flags, notCascade⟩ | none := plain
    · have noFlag : h.cascade = false := by
        obtain flags | flags := flags <;> simp [Header.cascade, flags]
      have notStopping : (decide (t.state = .stopping) && decide (t.stopKind = .cascade)) = false :=
        eq_false_of_ne_true fun both => notCascade (by simpa using both)
      simp only [State.cancelNow, there, noFlag, notStopping, Bool.or_self, Bool.false_eq_true, if_false]
    · simp only [State.cancelNow, there]
      split
      · exact State.endTrainCascade_of_no_waiter there .cancelled none
      · rfl
  have free : s.accepted.fetch.waiting = none := rfl
  have spare := (spare_reserve s.accepted i).endTrain free k .cancelled
  have ends := endedFrom_endTrain s.accepted k .cancelled free
  have offsets' : OffsetsInRange s.accepted := offsetsInRange_of_trains offsets rfl
  refine congrArg Host.Outcome.next ((State.submit_cancel_ends hf grants flags reserved tag named
    (does ▸ spare) ends).trans ?_)
  rw [State.endTrain_eq offsets' live']
  rfl

end Sys2Proof.Machine
end

section
/-! PROOFS. A held record and the places it waits for (chapters 6 and 7): the host heads, and the record writes. -/

namespace Sys2Proof.Machine

set_option Elab.async false

variable {s : State}

/-! A held record tries again -/

theorem State.retry_of_held {c : Submission} {returned : Time} (held : s.fetch = .stalled c returned) :
    s.retry = s.tryPlace returned c := by
  simp only [State.retry, held]

theorem State.holdsRecord_of_held {c : Submission} {returned : Time} (held : s.fetch = .stalled c returned) :
    s.holdsRecord = true := by
  simp only [State.holdsRecord, held]

theorem State.retry_of_free (free : s.holdsRecord = false) : s.retry = s := by
  obtain ⟨c, returned, held, -⟩ | ⟨-, e⟩ := s.retry_cases
  · rw [State.holdsRecord_of_held held] at free
    cases free
  · exact e

/-- Without a place the record stays held (R123, R124). -/
theorem State.tryPlace_of_full {c : Submission} {returned : Time} (held : s.fetch = .stalled c returned)
    (full : Config.accountPlaces ≤ (s.ring (s.target c.header)).account) : s.tryPlace returned c = s := by
  have none : ¬(s.ring (s.target c.header)).hasPlace = true := by
    simpa [Ring.hasPlace] using full
  rw [State.tryPlace, if_neg none, ← held]

/-- The checks of a record read no fetch state. -/
theorem State.check_fetch (s : State) (f : Fetch) (i : Fin 4) (c : Submission) :
    ({ s with fetch := f } : State).check i c = s.check i c := by
  cases c <;> rfl

/-- With a place the record is processed in RUNNING (R124). -/
theorem State.tryPlace_of_running {c : Submission} {returned : Time} {k : Fin 4} (target : s.target c.header = k)
    (place : (s.ring k).account < Config.accountPlaces) (running : s.device = .running) :
    s.tryPlace returned c = State.issueRead (match (s.reserve k).check k c with
      | some st => (({ s with fetch := .idle } : State).reserve k).stageCmdDone k st c.header.tag returned 0
      | none => (({ s with fetch := .idle } : State).reserve k).accept k returned c) := by
  have granted : (s.ring (s.target c.header)).hasPlace = true := by
    rw [target]
    exact decide_eq_true place
  rw [State.tryPlace, if_pos granted, if_pos running, target, State.process]
  rw [State.check_fetch]
  rfl

/-- A held record that fails a check is answered in the place it gets (R124, R128). -/
theorem State.tryPlace_refused {c : Submission} {returned : Time} {k : Fin 4} {st : Status}
    (target : s.target c.header = k) (place : (s.ring k).account < Config.accountPlaces)
    (running : s.device = .running) (check : (s.reserve k).check k c = some st) :
    s.tryPlace returned c = (({ s with fetch := .idle } : State).stageFree k
      { s.answer st c.header.tag 0 with time2 := returned }).issueRead := by
  rw [State.tryPlace_of_running target place running, check]
  exact congrArg State.issueRead (State.stageCmdDone_reserve (s := { s with fetch := .idle }) k st c.header.tag
    returned 0)

/-- In QUIESCING a held record is answered ABORTED in the place it gets (R125). -/
theorem State.tryPlace_aborted {c : Submission} {returned : Time} {k : Fin 4} (target : s.target c.header = k)
    (place : (s.ring k).account < Config.accountPlaces) (drains : s.device ≠ .running) :
    s.tryPlace returned c = ({ s with fetch := .idle } : State).stageFree k
      { s.answer .aborted c.header.tag 0 with time2 := returned } := by
  have granted : (s.ring (s.target c.header)).hasPlace = true := by
    rw [target]
    exact decide_eq_true place
  rw [State.tryPlace, if_pos granted, if_neg drains, target]
  exact State.stageCmdDone_reserve (s := { s with fetch := .idle }) k .aborted c.header.tag returned 0

/-! A record for a ring that is not in service -/

/-- The field check of a record, with its status (R126). -/
def State.fieldRefusal (s : State) : Submission → Option Status
  | .unknown _ _ => some .badKind
  | .nop h | .readTime h => refuseIf (!Header.fieldsOk h 0) .badField
  | .defineRing h b => refuseIf (!defineRingOk h b) .badField
  | .setOutput h b => refuseIf (!setOutputOk h b) .badField
  | .setInput h b => refuseIf (!setInputOk h b) .badField
  | .startTrain h b => refuseIf (!s.startTrainOk h b) .badField
  | .armCapture h b => refuseIf (!s.armCaptureOk h b) .badField
  | .cancel h => refuseIf (!cancelOk h) .badField
  | .fence h timeout => refuseIf (!fenceOk h timeout) .badField
  | .adjustTime h value => refuseIf (!adjustTimeOk h value) .badField

theorem firstRefusal_of_second {x : Option Status} {st : Status} {l : List (Option Status)} :
    firstRefusal (x :: some st :: l) = some (x.getD st) := by
  cases x <;> rfl

/-- A record that fails the ring check is answered by it, if its fields are in range (R122, R126). -/
theorem State.check_of_ringRefusal {i : Fin 4} {c : Submission} {st : Status}
    (refused : s.ringRefusal c.header = some st) : s.check i c = some ((s.fieldRefusal c).getD st) := by
  cases c with
  | unknown k h => rfl
  | _ =>
    simp only [Submission.header] at refused
    simp only [State.check, refused]
    exact firstRefusal_of_second

theorem State.fieldRefusal_reserve (s : State) (k : Fin 4) (c : Submission) :
    (s.reserve k).fieldRefusal c = s.fieldRefusal c := by
  cases c <;> rfl

/-- A header that names a FAULTED ring has CR0 as its target, and fails the ring check (R122). -/
theorem State.target_of_faulted {h : Header} {i : Fin 4} (named : ringNumber h.ring = some i)
    (faulted : (s.ring i).state = .faulted) : s.target h = 0 ∧ s.ringRefusal h = some .ringFault := by
  simp [State.target, State.namedActive, State.ringRefusal, named, faulted]

/-! CRHEAD -/

/-- A host head is checked on an ACTIVE ring in service (R156, R157). -/
theorem exec_crheadWrite_of_active {i : Fin 4} {v : Word} (listens : s.Listening)
    (serves : s.device = .running ∨ s.device = .quiescing) (active : (s.ring i).state = .active) :
    exec (.crheadWrite i v) s = .next (match (s.ring i).checkHead v.toNat with
      | .range => s.failHead i .cr0HeadRange
      | .overrun => s.failHead i .cr0HeadOverrun
      | .accepted => s.setRing i ((s.ring i).acceptHead v.toNat s.deviceTime)) := by
  refine (congrArg Host.Outcome.next (State.hostEvent_of_listening listens _)).trans ?_
  exact congrArg Host.Outcome.next (if_pos ⟨serves, active⟩)

/-- The state with ring `i` taken out of service (R159, R161). -/
def State.faulted (s : State) (i : Fin 4) : State := s.setRing i { s.ring i with state := .faulted }

theorem State.failHead_of_ne_zero {i : Fin 4} (other : i ≠ 0) (c : FatalCause) :
    s.failHead i c = (s.faulted i).retry := if_neg other

theorem State.failHead_zero (c : FatalCause) : s.failHead 0 c = haltedWith s c.cause := s.halt_eq c

/-- A failed host head of CR1 to CR3 faults the ring, whichever check failed. -/
theorem exec_crheadWrite_of_failed {i : Fin 4} {v : Word} (listens : s.Listening)
    (serves : s.device = .running ∨ s.device = .quiescing) (active : (s.ring i).state = .active) (other : i ≠ 0)
    (failed : (s.ring i).size ≤ v.toNat ∨ (s.ring i).span (s.ring i).writeIndex < (s.ring i).span v.toNat) :
    exec (.crheadWrite i v) s = .next (s.faulted i).retry := by
  rw [exec_crheadWrite_of_active listens serves active]
  obtain ⟨-, e⟩ | ⟨-, -, e⟩ | ⟨inside, within, -⟩ := (s.ring i).checkHead_cases v.toNat
  · rw [e]
    exact congrArg Host.Outcome.next (State.failHead_of_ne_zero other _)
  · rw [e]
    exact congrArg Host.Outcome.next (State.failHead_of_ne_zero other _)
  · omega

/-- Settles O34: the check of the head, and the record held for a ring that faults. -/
theorem crHeadWriteIsChecked : Obligations.CrHeadWriteIsChecked := by
  intro s i v listens r span
  refine ⟨fun serves active => ⟨?_, ?_, ?_⟩, ?_, ?_⟩
  · intro inside within
    rw [exec_crheadWrite_of_active listens serves active]
    obtain ⟨past, -⟩ | ⟨-, past, -⟩ | ⟨-, -, e⟩ := (s.ring i).checkHead_cases v.toNat
    · exact absurd inside (Nat.not_lt.mpr past)
    · exact absurd within (Nat.not_le.mpr past)
    · rw [e]
      rfl
  · intro past
    constructor
    · rintro rfl
      rw [exec_crheadWrite_of_active listens serves active, Ring.checkHead, if_pos past]
      exact congrArg Host.Outcome.next (State.failHead_zero .cr0HeadRange)
    · intro other free
      rw [exec_crheadWrite_of_failed listens serves active other (.inl past)]
      exact congrArg Host.Outcome.next (State.retry_of_free free)
  · intro inside past
    constructor
    · rintro rfl
      rw [exec_crheadWrite_of_active listens serves active, Ring.checkHead, if_neg (Nat.not_le.mpr inside),
        if_pos (show (s.ring 0).span (s.ring 0).writeIndex < (s.ring 0).span v.toNat from past)]
      exact congrArg Host.Outcome.next (State.failHead_zero .cr0HeadOverrun)
    · intro other free
      rw [exec_crheadWrite_of_failed listens serves active other (.inr past)]
      exact congrArg Host.Outcome.next (State.retry_of_free free)
  · intro d returned active other named held failed f answered
    have faulted : (f.ring i).state = .faulted := by
      rw [State.ring_setRing_self]
    obtain ⟨target, refused⟩ := State.target_of_faulted named faulted
    have cr0 : f.ring 0 = s.ring 0 := State.ring_setRing_of_ne _ _ _ _ other
    have tried (serves : s.device = .running ∨ s.device = .quiescing) :
        exec (.crheadWrite i v) s = .next (f.tryPlace returned d) := by
      rw [exec_crheadWrite_of_failed listens serves active other failed]
      exact congrArg Host.Outcome.next (State.retry_of_held (s := f) held)
    refine ⟨?_, ?_, ?_⟩
    · intro serves full
      have full' : Config.accountPlaces ≤ (f.ring (f.target d.header)).account := by
        rw [target, cr0]
        exact full
      rw [tried serves, State.tryPlace_of_full (s := f) held full']
    · intro running place
      have check : (f.reserve 0).check 0 d = some ((f.fieldRefusal d).getD .ringFault) := by
        have refused' : (f.reserve 0).ringRefusal d.header = some .ringFault :=
          (State.target_of_faulted (s := f.reserve 0) named
            ((State.ring_reserve_state (s := f) 0 i).trans faulted)).2
        rw [State.check_of_ringRefusal refused', State.fieldRefusal_reserve]
      refine ⟨_, ?_, (tried (.inl running)).trans (congrArg Host.Outcome.next
        (State.tryPlace_refused target (by rw [cr0]; exact place) running check))⟩
      rw [← State.check_of_ringRefusal (i := 0) refused]
      exact State.check_answer 0 d
    · intro drains place
      rw [tried (.inr drains)]
      have notRunning : f.device ≠ .running := by
        intro running
        rw [show f.device = s.device from rfl, drains] at running
        cases running
      exact congrArg Host.Outcome.next (State.tryPlace_aborted target (by rw [cr0]; exact place) notRunning)
  · intro out
    refine (congrArg Host.Outcome.next (State.hostEvent_of_listening listens _)).trans ?_
    refine congrArg Host.Outcome.next (if_neg ?_)
    rintro ⟨serves, active⟩
    obtain off | halted | inactive := out
    · rw [off] at serves
      simp at serves
    · rw [halted] at serves
      simp at serves
    · exact inactive active

end Sys2Proof.Machine
end

section
/-! PROOFS. Record writes (chapters 7 to 9): the oldest staged record, the held record that it gives a place, and
the end of a drain. -/

namespace Sys2Proof.Machine

set_option Elab.async false

variable {s : State}

/-- A ring's timer after a write is noted: started by the first record not announced (R172). -/
theorem Ring.timer_noteWrite (r : Ring) (now : Time) :
    (if r.unnotified = 0 then r.startTimer now else r.timer) =
      if r.unnotified ≠ 0 then r.timer else if r.holdoff = 0 then .expired
        else .running (now + BitVec.ofNat 48 (256 * r.holdoff)) := by
  by_cases zero : r.unnotified = 0
  · rw [if_pos zero, if_neg (not_not_intro zero)]
    rfl
  · rw [if_neg zero, if_pos zero]

/-- The ring after its oldest record is written and noted (R153, R172). -/
theorem Ring.wrote_noteWrite {r : Ring} {c : Completion} {rest : List Completion} (staged : r.staged = c :: rest)
    (now : Time) :
    r.wrote.noteWrite now =
      { r with
        staged := rest, writeIndex := (r.writeIndex + 1) % r.size
        phase := if (r.writeIndex + 1) % r.size = 0 then !r.phase else r.phase
        unnotified := min (r.unnotified + 1) 65535
        timer := if r.unnotified ≠ 0 then r.timer else if r.holdoff = 0 then .expired
          else .running (now + BitVec.ofNat 48 (256 * r.holdoff)) } := by
  have wrote : r.wrote =
      { r with
        staged := rest, writeIndex := (r.writeIndex + 1) % r.size
        phase := if (r.writeIndex + 1) % r.size = 0 then !r.phase else r.phase } := by
    rw [Ring.wrote, staged, List.tail_cons]
  rw [Ring.noteWrite, wrote, ← r.timer_noteWrite now]
  rfl

/-- The write of a ring's oldest staged record (R153, R172). -/
theorem State.writeRecord_eq {i : Fin 4} {c : Completion} {rest : List Completion}
    (staged : (s.ring i).staged = c :: rest) : s.writeRecord i = writtenTo s i c rest := by
  rw [State.writeRecord, Ring.wrote_noteWrite staged, writtenTo]
  simp only [staged]
  rfl

/-- The arbiter serves a ring without a due message by the write of its oldest record (R174). -/
theorem exec_postedWriteChoice_of_record {i : Fin 4} {c : Completion} {rest : List Completion}
    (listens : s.Listening) (mastering : s.busMastering = true) (halt : s.haltMessage = false)
    (closing : s.closing = []) (served : s.servedRing = some i) (quiet : (s.ring i).messageDue = false)
    (staged : (s.ring i).staged = c :: rest) :
    exec .postedWriteChoice s = .next (writtenTo s i c rest).retry.testDrain := by
  have none : ¬(s.ring i).messageDue = true := by simp [quiet]
  rw [exec_postedWriteChoice listens mastering, State.chooseWrite_of_served halt closing served, State.serveRing,
    if_neg none, State.writeRecord_eq staged]

theorem State.testDrain_of_not_quiescing (h : s.device ≠ .quiescing) : s.testDrain = s := by
  obtain ⟨q, -⟩ | ⟨-, e⟩ := s.testDrain_cases
  · exact absurd q h
  · exact e

theorem State.drained_iff : s.drained = true ↔ (∀ i, (s.ring i).staged = []) ∧ s.holdsRecord = false := by
  simp only [State.drained, Bool.and_eq_true, decide_eq_true_eq, State.stagedTotal_eq_zero, Bool.not_eq_true']

theorem State.testDrain_of_not_drained (h : ¬((∀ i, (s.ring i).staged = []) ∧ s.holdsRecord = false)) :
    s.testDrain = s := by
  obtain ⟨-, d, -⟩ | ⟨-, e⟩ := s.testDrain_cases
  · exact absurd (State.drained_iff.mp d) h
  · exact e

theorem State.testDrain_of_drained (quiescing : s.device = .quiescing) (empty : ∀ i, (s.ring i).staged = [])
    (free : s.holdsRecord = false) : s.testDrain = s.toOff .quiesced 0 false :=
  if_pos ⟨quiescing, State.drained_iff.mpr ⟨empty, free⟩⟩

/-- A record just staged stands on its ring (R150). -/
theorem State.staged_stageFree_ne_nil (s : State) (i : Fin 4) (c : Completion) :
    ((s.stageFree i c).ring i).staged ≠ [] := by
  rw [State.ring_stageFree, if_pos rfl]
  simp

/-- A write leaves the rings' states as they are, and gives up one place of its own. -/
theorem writtenTo_ring_state (s : State) (i k : Fin 4) (c : Completion) (rest : List Completion) :
    ((writtenTo s i c rest).ring k).state = (s.ring k).state := by
  change ((s.setRing i _).ring k).state = _
  rw [State.ring_setRing]
  split
  · subst i
    rfl
  · rfl

theorem writtenTo_ring_of_ne (s : State) {i k : Fin 4} (other : k ≠ i) (c : Completion) (rest : List Completion) :
    (writtenTo s i c rest).ring k = s.ring k :=
  State.ring_setRing_of_ne s i k _ (Ne.symm other)

theorem writtenTo_account {i : Fin 4} {c : Completion} {rest : List Completion}
    (staged : (s.ring i).staged = c :: rest) :
    ((writtenTo s i c rest).ring i).account + 1 = (s.ring i).account := by
  have ring : (writtenTo s i c rest).ring i = _ := State.ring_setRing_self s i _
  rw [ring]
  simp only [Ring.account, staged, List.length_cons]
  omega

/-- The target of a record depends on the rings' states alone (R122). -/
theorem State.target_congr {t : State} (h : ∀ k, (t.ring k).state = (s.ring k).state) (d : Header) :
    t.target d = s.target d := by
  simp only [State.target, State.namedActive, h]

/-- The checks of a NOP pass to its answer alone (R132). -/
theorem State.tryPlace_nop {h : Header} {returned : Time} {k : Fin 4} (target : s.target h = k)
    (place : (s.ring k).account < Config.accountPlaces) (running : s.device = .running)
    (check : (s.reserve k).check k (.nop h) = none) :
    s.tryPlace returned (.nop h) =
      (({ s with fetch := .idle, admissionCounter := s.admissionCounter + 1 } : State).stageFree k
        { s.answer .ok h.tag s.admissionCounter.toNat with time2 := returned }).issueRead := by
  rw [State.tryPlace_of_running (c := .nop h) target place running, check]
  exact congrArg State.issueRead (State.stageCmdDone_reserve
    (s := { s with fetch := .idle, admissionCounter := s.admissionCounter + 1 }) k .ok h.tag returned
    s.admissionCounter.toNat)

theorem State.issueRead_device (s : State) : s.issueRead.device = s.device := by
  obtain ⟨-, e⟩ | ⟨-, e⟩ := s.issueRead_cases <;> rw [e]

/-- Settles O42: the write, the held record by its target, and the drain. -/
theorem postedWriteWritesTheOldestRecord : Obligations.PostedWriteWritesTheOldestRecord := by
  intro s i c rest listens mastering halt closing served quiet staged w
  have written := exec_postedWriteChoice_of_record listens mastering halt closing served quiet staged
  have device : w.device = s.device := rfl
  refine ⟨?_, ?_, ?_⟩
  · intro running free
    rw [written, State.retry_of_free (s := w) free, State.testDrain_of_not_quiescing]
    simp [device, running]
  · intro quiescing free
    rw [written, State.retry_of_free (s := w) free]
    refine ⟨?_, ?_⟩
    · rintro ⟨j, some⟩
      rw [State.testDrain_of_not_drained fun d => some (d.1 j)]
    · intro empty
      rw [State.testDrain_of_drained (s := w) (device.trans quiescing) empty free]
      rfl
  · intro d returned held serves k answered
    have targetOf : w.target d.header = k :=
      State.target_congr (fun j => writtenTo_ring_state s i j c rest) d.header
    rw [written, State.retry_of_held (s := w) held]
    refine ⟨?_, ?_⟩
    · intro other full
      have full' : Config.accountPlaces ≤ (w.ring (w.target d.header)).account := by
        rw [targetOf, writtenTo_ring_of_ne s other]
        exact full
      rw [State.tryPlace_of_full (s := w) held full', State.testDrain_of_not_drained]
      rintro ⟨-, free⟩
      rw [State.holdsRecord_of_held (s := w) held] at free
      cases free
    · intro same account
      have place : (w.ring k).account < Config.accountPlaces := by
        rw [same]
        have one : (w.ring i).account + 1 = (s.ring i).account := writtenTo_account staged
        simp only [Config.accountPlaces]
        omega
      constructor
      · intro quiescing
        have notRunning : w.device ≠ .running := by simp [device, quiescing]
        rw [State.tryPlace_aborted targetOf place notRunning, State.testDrain_of_not_drained]
        exact fun d => State.staged_stageFree_ne_nil _ _ _ (d.1 k)
      · intro running
        rw [← same]
        constructor
        · intro st fails
          have check := (State.check_eq_iff k d (some st)).mpr fails
          rw [State.tryPlace_refused targetOf place (device.trans running) check,
            State.testDrain_of_not_quiescing (by
              rw [State.issueRead_device]
              simp [device, running])]
        · rintro h rfl passes
          have check := (State.check_eq_iff k (.nop h) none).mpr passes
          have tried : w.tryPlace returned (.nop h) = _ :=
            State.tryPlace_nop targetOf place (device.trans running) check
          rw [tried, State.testDrain_of_not_quiescing (by
            rw [State.issueRead_device]
            simp [device, running])]
          rfl

end Sys2Proof.Machine
end

section
/-! PROOFS. The moves that every step is made of. A law of the state, with what a state midway in a step still owes,
that every move carries is kept by every step; the invariants are settled by showing this move by move. -/

namespace Sys2Proof.Machine

set_option Elab.async false

/-- What a state midway in a step still owes: ends not yet reported to a waiting fence, an entry delivered whose
owner has not acted yet, the tags of ended trains whose waiters have not been seen to, the ring of a record that is
being processed, and whether the quiesce sweep is under way. -/
structure Midway where
  unreported : Nat
  popped     : Option Owner
  lost       : List Tag
  place      : Option (Fin 4)
  sweeping   : Bool

/-- Between steps nothing is owed. -/
def Midway.rest : Midway := { unreported := 0, popped := none, lost := [], place := none, sweeping := false }

/-- The owner of a delivered entry has acted. -/
def Midway.forget (m : Midway) (o : Owner) : Midway :=
  { m with popped := if m.popped = some o then none else m.popped }

/-- A work has ended: its end is to be reported, and the waiters of its tag, if a train's, to be seen to. -/
def Midway.closed (m : Midway) (o : Owner) (tags : List Tag) : Midway :=
  { m.forget o with unreported := m.unreported + 1, lost := tags ++ m.lost }

/-- One end has been reported. -/
def Midway.reported (m : Midway) : Midway := { m with unreported := m.unreported - 1 }

/-- What is claimed of the states midway in a step. -/
abbrev Law := Midway → State → Prop

/-- The law that says nothing. -/
def Law.always : Law := fun _ _ => True

/-- Both laws. -/
def Law.and (I P : Law) : Law := fun m s => I m s ∧ P m s

/-- A move carries `P` along, where `I` holds before it and after it. -/
def Carries (I P : Law) (m : Midway) (s : State) (m' : Midway) (s' : State) : Prop :=
  I m s → I m' s' → P m s → P m' s'

theorem Carries.run {P : Law} {m m' : Midway} {s s' : State} (h : Carries .always P m s m' s') (hp : P m s) :
    P m' s' := h trivial trivial hp

/-- Law `I` says all that `J` says. -/
abbrev Law.Entails (I J : Law) : Prop := ∀ m s, I m s → J m s

/-- A law carried along beside another that is carried. -/
theorem Carries.and {I J P : Law} {m m' : Midway} {s s' : State} (hI : Carries .always I m s m' s')
    (le : I.Entails J) (hP : Carries J P m s m' s') : Carries .always (I.and P) m s m' s' :=
  fun _ _ ⟨i, p⟩ => ⟨hI.run i, hP (le _ _ i) (le _ _ (hI.run i)) p⟩

/-- `s'` differs from `s` in fields that no law here speaks of. -/
def QuietFrom (s s' : State) : Prop :=
  s' = { s with
    timeCapture := s'.timeCapture, inputs := s'.inputs, discardedReads := s'.discardedReads
    admissionCounter := s'.admissionCounter, haltMessage := s'.haltMessage, closing := s'.closing
    lastCause := s'.lastCause, discardedCount := s'.discardedCount, commandDropped := s'.commandDropped
    quiesceElapsed := s'.quiesceElapsed, cr0BaseLo := s'.cr0BaseLo, cr0BaseHi := s'.cr0BaseHi
    cr0Cfg := s'.cr0Cfg, busMastering := s'.busMastering, msiEnabled := s'.msiEnabled
    vectorsEnabled := s'.vectorsEnabled, vectors := s'.vectors, linkOut := s'.linkOut
    readData := s'.readData, choices := s'.choices, pending := s'.pending }

/-- `t` is the train `u` on another stretch of its way: what its admission fixed is the same. -/
structure Train.Same (u t : Train) : Prop where
  tag      : t.tag = u.tag
  line     : t.line = u.line
  ring     : t.ring = u.ring
  segments : t.segments = u.segments
  start    : t.start = u.start

/-- Ring `r'` is ring `r` with no more records staged, in the same state and with the same places owed. -/
structure Ring.Eased (r r' : Ring) : Prop where
  state  : r'.state = r.state
  owed   : r'.owed = r.owed
  staged : r'.staged.length ≤ r.staged.length
  sound  : r.Sound → r'.Sound

/-- The rings serve: the device is RUNNING or QUIESCING, or a ring is ACTIVE. -/
def State.Serving (s : State) : Prop :=
  (s.device = .running ∨ s.device = .quiescing) ∨ ∃ k, (s.ring k).state = .active

/-- No train on the admission list waits on the end of the train with this tag. -/
def State.NoneWaits (s : State) (tag : Tag) : Prop :=
  ∀ j u, Owner.train j ∈ s.admission → s.train j = some u → u.state = .waiting → u.start.onEnd tag = false

/-- An output line's modulator runs exactly at CARRIER (section 2.4). -/
def Line.Modulated (x : Line) : Prop := x.modulator.isSome = decide (x.present = .carrier)

/-- Line `y` is line `x` with other settings or at another level. -/
structure Line.Touched (x y : Line) : Prop where
  owner     : y.owner = x.owner
  successor : y.successor = x.successor
  modulated : x.Modulated → y.Modulated

/-- The train `u` can be admitted into slot `k`, its command holding its place on ring `i` (R45 to R48). -/
structure State.EnrollsTrain (s : State) (i : Fin 4) (k : Fin 32) (u : Train) : Prop where
  free      : s.train k = none
  running   : s.device = .running
  idle      : s.fetch = .idle
  tag       : u.tag ≠ 0 ∧ ∀ e ∈ s.tagMap, e.1 ≠ u.tag
  ring      : u.ring = i
  line      : (s.line u.line).owner = none ∨ (s.line u.line).successor = none
  segments  : u.SegmentsSound
  reference : u.state = .waiting → ∀ g o, u.start = .afterEnd g o → ∃ p, (g, Work.train p) ∈ s.tagMap

/-- The train on the list, in the tag map and on its line, before its entry is made (R48). -/
def State.enrollTrain (s : State) (k : Fin 32) (u : Train) : State :=
  (((s.setTrain k (some u)).join (.train k)).addTag u.tag (.train k)).setLine u.line ((s.line u.line).claim k)

/-- The capture `c` can be admitted into slot `k`, its command holding its place on ring `i` (R81 to R84). -/
structure State.EnrollsCapture (s : State) (i : Fin 4) (k : Fin 16) (c : Capture) : Prop where
  free    : s.capture k = none
  running : s.device = .running
  idle    : s.fetch = .idle
  tag     : c.tag ≠ 0 ∧ ∀ e ∈ s.tagMap, e.1 ≠ c.tag
  ring    : c.ring = i

/-- The capture on the list and in the tag map, before its entry is made (R84). -/
def State.enrollCapture (s : State) (k : Fin 16) (c : Capture) : State :=
  ((s.setCapture k (some c)).join (.capture k)).addTag c.tag (.capture k)

/-- The fence on the list, waiting, before its entry is made (R137). -/
def State.enrollFence (s : State) (i : Fin 4) (tag : Tag) : State :=
  { s.join .fence with
    fetch := .fenced { count := s.tagMap.length, ring := i, acceptedAt := s.deviceTime, tag := tag } }

/-- `s'` is `s` with every work dropped: at a halt, or at a reset. -/
structure Cleared (s s' : State) : Prop where
  trains     : ∀ i, s'.train i = none
  captures   : ∀ i, s'.capture i = none
  calendar   : s'.calendar = []
  admission  : s'.admission = []
  tagMap     : s'.tagMap = []
  fetch      : s'.fetch = .idle
  rings      : ∀ i, s'.ring i = Ring.undefined
  lines      : ∀ l, (s'.line l).owner = none ∧ (s'.line l).successor = none ∧ (s'.line l).Modulated
  device     : s'.device = .off ∨ s'.device = .halted
  unit       : s'.device = .halted →
    s.device ≠ .off ∧ s'.sqSize = s.sqSize ∧ s'.head = s.head ∧ s'.tail = s.tail
  clock      : s'.deviceTime = s.deviceTime ∧ s'.timeRestart = s.timeRestart ∨ s'.deviceTime = 0
  resetHeld  : s'.resetHeld = s.resetHeld
  refclk     : s'.refclk = s.refclk
  heldEvents : s'.heldEvents = s.discardRead.heldEvents

/-- A work is owed its entry no more: it has acted. -/
def Midway.acted (m : Midway) : Midway := { m with popped := none }

/-- The record that is processed holds its place on ring `i`. -/
def Midway.holding (i : Fin 4) : Midway := { Midway.rest with place := some i }

/-- A work is on the list, and its entry to be made. -/
def Midway.owing (o : Owner) : Midway := { Midway.rest with popped := some o }

/-- The quiesce sweep is under way, and has ended the trains with these tags. -/
def Midway.sweep (tags : List Tag) : Midway := { Midway.rest with sweeping := true, lost := tags }

/-- The moves that every action within a tick is made of carry the law `P`, where `I` holds throughout. -/
structure Moves (I P : Law) : Prop where
  quiet : ∀ {m s s'}, QuietFrom s s' → Carries I P m s m s'
  settle : ∀ {m s tag l}, m.lost = tag :: l → s.NoneWaits tag → Carries I P m s { m with lost := l } s
  unpop : ∀ {m s}, (∀ k u, m.popped = some (.train k) → s.train k = some u → ¬u.SegmentsSound) →
    Carries I P m s m.acted s
  closeTrain : ∀ {m s i t} st r, s.train i = some t →
    Carries I P m s (m.closed (.train i) [t.tag]) (endedTrain s i t st r)
  closeCapture : ∀ {m s i c} st, s.capture i = some c →
    Carries I P m s (m.closed (.capture i) []) ((s.closeCapture i c st).setCapture i none)
  endFence : ∀ {m s f} n k st, s.fetch = .fenced f →
    Carries I P m s { m.forget .fence with unreported := n } (s.endFence { f with count := k } st)
  lowerCount : ∀ {m s f}, s.fetch = .fenced f → 1 ≤ m.unreported →
    ¬(f.count - 1 = 0 ∧ s.device = .running) →
    Carries I P m s m.reported { s with fetch := .fenced { f with count := f.count - 1 } }
  reportNone : ∀ {m s}, s.fetch.waiting = none → 1 ≤ m.unreported → Carries I P m s m.reported s
  retrain : ∀ {m s i u t}, s.train i = some u → u.Same t →
    (t.state = .waiting ↔ u.state = .waiting) ∨ m.popped = some (.train i) ∧ t.state ≠ .waiting →
    Carries I P m s m (s.setTrain i (some t))
  wake : ∀ {m s i u t}, m.popped = none → s.train i = some u → u.Same t → t.state ≠ .waiting →
    (s.admission.Nodup → u.state = .waiting) →
    Carries I P m s { m with popped := some (.train i) } (s.setTrain i (some t))
  insertEntry : ∀ {m s o a due}, m.popped = some o → s.live o = true →
    Entry.legal { due := due, owner := o, action := a } = true →
    (∀ k u, o = .train k → s.train k = some u → u.SegmentsSound → isFuture s.deviceTime due = true) →
    Carries I P m s m.acted (s.insert o a due)
  recapture : ∀ {m s i c d}, s.capture i = some c → d.tag = c.tag → d.ring = c.ring →
    Carries I P m s m (s.setCapture i (some d))
  touchLine : ∀ {m s l x}, (s.line l).Touched x → Carries I P m s m (s.setLine l x)
  easeRing : ∀ {m s i r}, (s.ring i).Eased r → Carries I P m s m (s.setRing i r)
  faultRing : ∀ {m s i}, i ≠ 0 → (s.ring i).state = .active → Carries I P m s m (s.faulted i)
  stageFree : ∀ {m s i c} r, s.capture i = some c → (s.ring c.ring).hasPlace = true →
    Carries I P m s m (s.stageFree c.ring r)
  reserve : ∀ {s i}, (s.ring i).hasPlace = true → (s.ring i).state = .active ∨ i = 0 ∧ s.Serving →
    Carries I P .rest s (.holding i) (s.reserve i)
  answer : ∀ {s i} r, Carries I P (.holding i) s .rest (s.stageFinal i r)
  undefineRing : ∀ {m s k}, k ≠ 0 → (s.ring k).state = .undefined ∨ (s.ring k).account = 0 →
    Carries I P m s m (s.setRing k Ring.undefined)
  redefineRing : ∀ {m s k} base size level threshold holdoff, k ≠ 0 → s.device = .running → size ∈ crSizes →
    Carries I P m s m (s.setRing k ((s.ring k).kept.define base size level threshold holdoff))
  enrollTrain : ∀ {s i k u}, s.EnrollsTrain i k u →
    Carries I P (.holding i) s (if u.state = .waiting then .rest else .owing (.train k)) (s.enrollTrain k u)
  enrollCapture : ∀ {s i k c}, s.EnrollsCapture i k c →
    Carries I P (.holding i) s (.owing (.capture k)) (s.enrollCapture k c)
  enrollFence : ∀ {s i} tag, s.device = .running → s.fetch = .idle → s.tagMap.length ≠ 0 →
    Carries I P (.holding i) s (.owing .fence) (s.enrollFence i tag)
  adjust : ∀ {m s} v, s.anyLive = false → s.fetch = .idle → s.resetHeld = false → Carries I P m s m (s.adjust v)
  refetch : ∀ {m s f}, s.fetch.waiting = none → f.waiting = none →
    (∀ r ∈ f.outstanding, s.device = .running ∧ r.index = s.head
      ∧ r.address = s.sqBase + BitVec.ofNat 64 (64 * s.head)) →
    Carries I P m s m { s with fetch := f }
  advanceHead : ∀ {m s}, s.device = .running → s.fetch.waiting = none →
    Carries I P m s m { s with head := (s.head + 1) % s.sqSize.toNat, fetch := .idle }
  setTail : ∀ {m s n}, n < s.sqSize.toNat → Carries I P m s m { s with tail := n }
  discardHeld : ∀ {m s}, Carries I P m s m { s with heldEvents := s.heldEvents.map HostEvent.ofDiscarded }
  clear : ∀ {s s'}, Cleared s s' → Carries I P .rest s .rest s'
  toOff : ∀ {s} c n d, s.device = .quiescing → Carries I P .rest s .rest (s.toOff c n d)
  enterRunning : ∀ {s}, s.device = .off → s.configValid = true → Carries I P .rest s .rest s.enterRunning
  configure : ∀ {s} lo hi size, s.device = .off →
    Carries I P .rest s .rest { s with sqBaseLo := lo, sqBaseHi := hi, sqSize := size }
  beginSweep : ∀ {s}, s.device = .running → s.fetch.outstanding = none →
    Carries I P .rest s (.sweep []) { s with device := .quiescing, quiesceElapsed := 0 }

/-- The moves between ticks and between events carry the law `P`. -/
structure OuterMoves (I P : Law) : Prop where
  rehost : ∀ {s} clock held, Carries I P .rest s .rest { s with refclk := clock, heldEvents := held }
  pop : ∀ {s o a}, s.dueEntry = some { due := s.deviceTime, owner := o, action := a } →
    Carries I P .rest s (.owing o) s.popEntry
  count : ∀ {s}, s.resetHeld = false → s.dueEvents = [] → Carries I P .rest s .rest s.count
  holdReset : ∀ {s}, s.deviceTime = 0 → Carries I P .rest s .rest { s with resetHeld := true }
  releaseReset : ∀ {s}, s.resetHeld = true →
    Carries I P .rest s .rest { s with resetHeld := false, timeRestart := true }

/-- Two laws kept by every move, the second where the first holds. -/
theorem Moves.and {I J P : Law} (A : Moves .always I) (le : I.Entails J) (B : Moves J P) : Moves .always (I.and P) where
  quiet q := (A.quiet q).and le (B.quiet q)
  settle e n := (A.settle e n).and le (B.settle e n)
  unpop h := (A.unpop h).and le (B.unpop h)
  closeTrain st r h := (A.closeTrain st r h).and le (B.closeTrain st r h)
  closeCapture st h := (A.closeCapture st h).and le (B.closeCapture st h)
  endFence n k st h := (A.endFence n k st h).and le (B.endFence n k st h)
  lowerCount h a b := (A.lowerCount h a b).and le (B.lowerCount h a b)
  reportNone h a := (A.reportNone h a).and le (B.reportNone h a)
  retrain h a b := (A.retrain h a b).and le (B.retrain h a b)
  wake h a b c d := (A.wake h a b c d).and le (B.wake h a b c d)
  insertEntry h a b c := (A.insertEntry h a b c).and le (B.insertEntry h a b c)
  recapture h a b := (A.recapture h a b).and le (B.recapture h a b)
  touchLine h := (A.touchLine h).and le (B.touchLine h)
  easeRing h := (A.easeRing h).and le (B.easeRing h)
  faultRing h a := (A.faultRing h a).and le (B.faultRing h a)
  stageFree r h a := (A.stageFree r h a).and le (B.stageFree r h a)
  reserve h a := (A.reserve h a).and le (B.reserve h a)
  answer r := (A.answer r).and le (B.answer r)
  undefineRing h a := (A.undefineRing h a).and le (B.undefineRing h a)
  redefineRing base size level threshold holdoff h a b :=
    (A.redefineRing base size level threshold holdoff h a b).and le
      (B.redefineRing base size level threshold holdoff h a b)
  enrollTrain h := (A.enrollTrain h).and le (B.enrollTrain h)
  enrollCapture h := (A.enrollCapture h).and le (B.enrollCapture h)
  enrollFence tag h a b := (A.enrollFence tag h a b).and le (B.enrollFence tag h a b)
  adjust v h a b := (A.adjust v h a b).and le (B.adjust v h a b)
  refetch h a b := (A.refetch h a b).and le (B.refetch h a b)
  advanceHead h a := (A.advanceHead h a).and le (B.advanceHead h a)
  setTail h := (A.setTail h).and le (B.setTail h)
  discardHeld := A.discardHeld.and le B.discardHeld
  clear h := (A.clear h).and le (B.clear h)
  toOff c n d h := (A.toOff c n d h).and le (B.toOff c n d h)
  enterRunning h a := (A.enterRunning h a).and le (B.enterRunning h a)
  configure lo hi size h := (A.configure lo hi size h).and le (B.configure lo hi size h)
  beginSweep h a := (A.beginSweep h a).and le (B.beginSweep h a)

theorem OuterMoves.and {I J P : Law} (A : OuterMoves .always I) (le : I.Entails J) (B : OuterMoves J P) :
    OuterMoves .always (I.and P) where
  rehost clock held := (A.rehost clock held).and le (B.rehost clock held)
  pop h := (A.pop h).and le (B.pop h)
  count h a := (A.count h a).and le (B.count h a)
  holdReset h := (A.holdReset h).and le (B.holdReset h)
  releaseReset h := (A.releaseReset h).and le (B.releaseReset h)

end Sys2Proof.Machine
end

section
/-! PROOFS. Starts and ends of works as moves (chapters 3 to 5): a law that every move carries is kept by the report
of an end, by releases and triggers, and by the ends of trains and captures. -/

namespace Sys2Proof.Machine

set_option Elab.async false

variable {s : State}

/-! An end keeps clear of the capture slots -/

theorem State.issueRead_setCapture (s : State) (i : Fin 16) (x : Option Capture) :
    (s.setCapture i x).issueRead = s.issueRead.setCapture i x := by
  by_cases due : s.device = .running ∧ s.fetch = .idle ∧ s.head ≠ s.tail ∧ s.busMastering = true
  · exact (if_pos due : (s.setCapture i x).issueRead = _).trans
      (congrArg (fun t : State => t.setCapture i x) (if_pos due : s.issueRead = _)).symm
  · exact (if_neg due : (s.setCapture i x).issueRead = _).trans
      (congrArg (fun t : State => t.setCapture i x) (if_neg due : s.issueRead = _)).symm

theorem State.reportEnd_setCapture (s : State) (i : Fin 16) (x : Option Capture) :
    (s.setCapture i x).reportEnd = s.reportEnd.setCapture i x := by
  unfold State.reportEnd
  rw [State.setCapture_fetch]
  split
  · rename_i f _
    by_cases last : f.count - 1 = 0 ∧ s.device = .running
    · rw [if_pos last, ← State.issueRead_setCapture]
      exact if_pos last
    · rw [if_neg last]
      exact if_neg last
  · rfl

theorem State.closeTrain_setCapture (s : State) (i : Fin 16) (x : Option Capture) (j : Fin 32) (st : Status)
    (cascaded : Bool) : (s.setCapture i x).closeTrain j st cascaded = (s.closeTrain j st cascaded).setCapture i x := by
  unfold State.closeTrain
  rw [State.setCapture_train]
  split <;> rfl

theorem foldl_setCapture {α : Type} {f : State → α → State} {i : Fin 16} {x : Option Capture}
    (apart : ∀ s j, f (s.setCapture i x) j = (f s j).setCapture i x) (l : List α) (s : State) :
    l.foldl f (s.setCapture i x) = (l.foldl f s).setCapture i x := by
  induction l generalizing s with
  | nil => rfl
  | cons j l ih => rw [List.foldl_cons, List.foldl_cons, apart, ih]

theorem State.endTrain_setCapture (s : State) (i : Fin 16) (x : Option Capture) (j : Fin 32) (st : Status) :
    (s.setCapture i x).endTrain j st = (s.endTrain j st).setCapture i x := by
  unfold State.endTrain
  rw [State.setCapture_train]
  split
  · rfl
  · dsimp only
    rw [State.closeTrain_setCapture, ← State.reportEnd_setCapture,
      ← foldl_setCapture fun s j => State.release_setCapture s i x j]
    rfl

/-- The capture's slot may be freed before the trains that wait on it are lost: their ends do not read it. -/
theorem State.endCapture_of_capture {i : Fin 16} {c : Capture} (live : s.capture i = some c) (st : Status) :
    s.endCapture i st =
      let k := (s.closeCapture i c st).setCapture i none
      ((k.waiters (StartCondition.onCapture c.tag)).foldl (fun r j => r.endTrain j .triggerLost) k).reportEnd := by
  simp only [State.endCapture, live]
  rw [foldl_setCapture fun s j => State.endTrain_setCapture s i none j .triggerLost]
  rfl

/-! Waiters, one by one -/

theorem State.enterSegment_train (s : State) (i j : Fin 32) (t : Train) (k : Nat) :
    (s.enterSegment i t k).train j = if i = j then some { t with index := k } else s.train j := by
  unfold State.enterSegment
  split
  · exact State.train_setTrain ..
  · rw [State.insert_eq]
    exact State.train_setTrain ..

theorem State.arm_train (s : State) (i j : Fin 32) (t : Train) (asked : Time) :
    (s.arm i t asked).train j = if i = j then (s.arm i t asked).train i else s.train j := by
  split
  · rename_i same
    rw [same]
  · rename_i other
    by_cases ahead : isFuture s.deviceTime asked = true
    · rw [s.arm_of_ahead i t ahead, State.insert_eq]
      exact State.train_setTrain_of_ne s i j _ other
    · have past : s.request (.train i) .start asked = none := if_neg ahead
      simp only [State.arm, past]
      exact (State.enterSegment_train ..).trans (if_neg other)

/-- An armed or started train does not wait. -/
theorem State.arm_train_self (s : State) (i : Fin 32) (t : Train) (asked : Time) :
    ∃ u, (s.arm i t asked).train i = some u ∧ u.state ≠ .waiting := by
  by_cases ahead : isFuture s.deviceTime asked = true
  · refine ⟨{ t with state := .armed, startTime := some asked }, ?_, TrainState.noConfusion⟩
    rw [s.arm_of_ahead i t ahead, State.insert_eq]
    exact State.train_setTrain_self ..
  · have past : s.request (.train i) .start asked = none := if_neg ahead
    refine ⟨{ t with
      state := .running, index := 0, startTime := some s.deviceTime
      late := t.late || decide (asked ≠ s.deviceTime) }, ?_, TrainState.noConfusion⟩
    simp only [State.arm, past]
    exact (State.enterSegment_train ..).trans (if_pos rfl)

/-- `f` starts the train of a slot: it leaves the other slots and the admission list alone, and that train does not
wait any more. -/
structure Starts (f : State → Fin 32 → State) : Prop where
  other     : ∀ s j k, j ≠ k → (f s j).train k = s.train k
  self      : ∀ s j u, (f s j).train j = some u → u.state ≠ .waiting
  admission : ∀ s j, (f s j).admission = s.admission

theorem StartedFrom.admission {t : State} (h : StartedFrom s t) : t.admission = s.admission :=
  (congrArg State.admission h :)

theorem starts_release : Starts State.release where
  other s j k h := by
    unfold State.release
    split
    · rfl
    · split
      · exact (State.enterSegment_train ..).trans (if_neg h)
      · exact (State.arm_train ..).trans (if_neg h)
  self s j u h := by
    unfold State.release at h
    split at h
    · rename_i free
      rw [free] at h
      cases h
    · rename_i t live
      split at h
      · rw [State.startNow, State.begin, State.enterSegment_train, if_pos rfl] at h
        rw [← Option.some.inj h]
        exact TrainState.noConfusion
      · obtain ⟨v, there, waits⟩ := s.arm_train_self j t (after s.deviceTime t.start.offset)
        rw [there] at h
        exact Option.some.inj h ▸ waits
  admission s j := (startedFrom_release s j).admission

theorem starts_fire (stamp : Time) : Starts (State.fire stamp) where
  other s j k h := by
    unfold State.fire
    split
    · rfl
    · exact (State.arm_train ..).trans (if_neg h)
  self s j u h := by
    unfold State.fire at h
    split at h
    · rename_i free
      rw [free] at h
      cases h
    · rename_i t live
      obtain ⟨v, there, waits⟩ := s.arm_train_self j t (after stamp t.start.offset)
      rw [there] at h
      exact Option.some.inj h ▸ waits
  admission s j := (startedFrom_fire stamp s j).admission

theorem Starts.foldl_admission {f : State → Fin 32 → State} (h : Starts f) (l : List (Fin 32)) (s : State) :
    (l.foldl f s).admission = s.admission := by
  induction l generalizing s with
  | nil => rfl
  | cons j l ih => exact (ih _).trans (h.admission s j)

/-- What starting a list of trains leaves: the others as they were, and none of these waiting. -/
theorem Starts.foldl_train {f : State → Fin 32 → State} (h : Starts f) (l : List (Fin 32)) (s : State) (k : Fin 32) :
    (k ∉ l → (l.foldl f s).train k = s.train k)
      ∧ (k ∈ l → ∀ u, (l.foldl f s).train k = some u → u.state ≠ .waiting) := by
  induction l generalizing s with
  | nil => exact ⟨fun _ => rfl, fun none => nomatch none⟩
  | cons j l ih =>
    rw [List.foldl_cons]
    constructor
    · intro out
      rw [List.mem_cons, not_or] at out
      exact ((ih _).1 out.2).trans (h.other s j k (Ne.symm out.1))
    · intro inside u there
      by_cases again : k ∈ l
      · exact (ih _).2 again u there
      · obtain rfl : k = j := (List.mem_cons.mp inside).resolve_right again
        rw [(ih _).1 again] at there
        exact h.self s k u there

/-- A waiter of a kind waits, and stands on the list once. -/
theorem waiters_wait {p : StartCondition → Bool} (once : s.admission.Nodup) :
    (oldestWaiting s p).Nodup ∧ ∀ j ∈ oldestWaiting s p, ∀ u, s.train j = some u → u.state = .waiting := by
  constructor
  · rw [oldestWaiting_eq]
    refine once.filterMap fun a b j ha hb => ?_
    rw [Option.mem_def] at ha hb
    rw [(State.waiterAt_eq_some.mp ha).1, (State.waiterAt_eq_some.mp hb).1]
  · intro j waiter u live
    obtain ⟨-, v, live', waits, -⟩ := mem_oldestWaiting.mp waiter
    rw [live] at live'
    exact Option.some.inj live' ▸ waits

/-- Once every train that waits on a tag has been started, none waits on it. -/
theorem Starts.noneWaits {f : State → Fin 32 → State} (h : Starts f) (s : State) (tag : Tag) :
    ((oldestWaiting s (StartCondition.onEnd tag)).foldl f s).NoneWaits tag := by
  intro j u listed live waits
  rw [h.foldl_admission] at listed
  obtain ⟨others, these⟩ := h.foldl_train (oldestWaiting s (StartCondition.onEnd tag)) s j
  by_cases waiter : j ∈ oldestWaiting s (StartCondition.onEnd tag)
  · exact absurd waits (these waiter u live)
  · rw [others waiter] at live
    refine eq_false_of_ne_true fun meets => waiter ?_
    exact mem_oldestWaiting.mpr ⟨listed, u, live, waits, meets⟩

/-! What the moves carry -/

theorem Midway.acted_of_idle {m : Midway} (idle : m.popped = none) : m.acted = m := by rw [Midway.acted, ← idle]

theorem Midway.acted_of_owing {m : Midway} (idle : m.popped = none) (o : Owner) :
    ({ m with popped := some o } : Midway).acted = m := Midway.acted_of_idle idle

section
variable {P : Law} (K : Moves .always P) {m : Midway}
include K

theorem Moves.issueRead (h : P m s) : P m s.issueRead := by
  obtain ⟨⟨running, idle, -⟩, e⟩ | ⟨-, e⟩ := s.issueRead_cases
  · rw [e]
    refine (K.refetch ?_ rfl ?_).run h
    · rw [idle]
      rfl
    · intro r hr
      cases hr
      exact ⟨running, rfl, rfl⟩
  · rwa [e]

/-- An end is reported to the fence, which its last one ends (R138). -/
theorem Moves.reportEnd (one : 1 ≤ m.unreported) (apart : m.popped ≠ some .fence) (h : P m s) :
    P m.reported s.reportEnd := by
  obtain ⟨free, e⟩ | ⟨f, waits, -, -, e⟩ | ⟨f, waits, more, e⟩ := s.reportEnd_cases
  · rw [e]
    refine (K.reportNone ?_ one).run h
    cases waits : s.fetch with
    | fenced f => exact absurd waits (free f)
    | _ => rfl
  · rw [e]
    have ended := (K.endFence (m.unreported - 1) (f.count - 1) .ok waits).run h
    have same : ({ m.forget .fence with unreported := m.unreported - 1 } : Midway) = m.reported := by
      rw [Midway.forget, if_neg apart]
      rfl
    rw [same] at ended
    exact K.issueRead ended
  · rw [e]
    exact (K.lowerCount waits one more).run h

omit K in
/-- A line at another level keeps its owners, and its modulator runs exactly at CARRIER. -/
theorem Line.touched_take (x : Line) (v : LineLevel) : x.Touched (x.take v) where
  owner := rfl
  successor := rfl
  modulated _ := by cases v <;> rfl

/-- A train whose entry has been delivered, or that is awake, begins a segment. -/
theorem Moves.enterSegment {i : Fin 32} {u t : Train} {k : Nat} (popped : m.popped = some (.train i))
    (live : s.train i = some u) (same : u.Same t)
    (waits : (t.state = .waiting ↔ u.state = .waiting) ∨ t.state ≠ .waiting)
    (inside : k = 0 ∨ k < t.segments.length) (h : P m s) : P m.acted (s.enterSegment i t k) := by
  have begun := (K.retrain (t := { t with index := k }) live
    ⟨same.tag, same.line, same.ring, same.segments, same.start⟩
    (waits.imp_right (And.intro popped))).run h
  have there : (s.setTrain i (some { t with index := k })).train i = some { t with index := k } :=
    State.train_setTrain_self ..
  unfold State.enterSegment
  split
  · rename_i out
    refine (K.unpop fun j v popped' live' sound => ?_).run begun
    obtain rfl : i = j := Owner.train.inj (Option.some.inj (popped.symm.trans popped'))
    rw [there] at live'
    obtain rfl := Option.some.inj live'
    have outside := List.getElem?_eq_none_iff.mp out
    have some : 1 ≤ t.segments.length := sound.1
    omega
  · rename_i g segment
    refine (K.insertEntry popped ?_ rfl ?_).run ((K.touchLine (Line.touched_take _ _)).run begun)
    · exact (congrArg Option.isSome there :)
    · intro j v self live' sound
      obtain rfl : i = j := Owner.train.inj self
      obtain rfl : _ = v := Option.some.inj (there.symm.trans live')
      obtain ⟨shortest, longest⟩ := sound.2.2.1 g (List.mem_of_getElem? segment)
      exact isFuture_after _ _ (by omega) (by simp only [Config.horizon]; omega)

/-- A waiting train is no longer waiting: it runs from this tick. -/
theorem Moves.startNow {i : Fin 32} {u t : Train} (idle : m.popped = none) (live : s.train i = some u)
    (same : u.Same t) (waits : s.admission.Nodup → u.state = .waiting) (h : P m s) : P m (s.startNow i t) := by
  let v : Train := { t with startTime := some s.deviceTime, state := .running }
  have woken := (K.wake (t := v) idle live ⟨same.tag, same.line, same.ring, same.segments, same.start⟩
    TrainState.noConfusion waits).run h
  have begun := K.enterSegment (s := s.setTrain i (some v)) (t := v) (k := 0) rfl (State.train_setTrain_self ..)
    ⟨rfl, rfl, rfl, rfl, rfl⟩ (.inl Iff.rfl) (.inl rfl) woken
  have twice : (s.setTrain i (some v)).enterSegment i v 0 = s.startNow i t := by
    simp only [State.startNow, State.begin, State.enterSegment, State.setTrain_setTrain]
    rfl
  rwa [twice, Midway.acted_of_owing idle] at begun

theorem Moves.armTrain {i : Fin 32} {u : Train} (asked : Time) (idle : m.popped = none) (live : s.train i = some u)
    (waits : s.admission.Nodup → u.state = .waiting) (h : P m s) : P m (s.arm i u asked) := by
  by_cases ahead : isFuture s.deviceTime asked = true
  · rw [s.arm_of_ahead i u ahead]
    let v : Train := { u with state := .armed, startTime := some asked }
    have woken := (K.wake (t := v) idle live ⟨rfl, rfl, rfl, rfl, rfl⟩ TrainState.noConfusion waits).run h
    have there : (s.setTrain i (some v)).train i = some v := State.train_setTrain_self ..
    have armed := (K.insertEntry (m := { m with popped := some (.train i) }) (a := .start) (due := asked) rfl
      (congrArg Option.isSome there :) rfl fun _ _ _ _ _ => ahead).run woken
    rwa [Midway.acted_of_owing idle] at armed
  · have past : s.request (.train i) .start asked = none := if_neg ahead
    simp only [State.arm, past]
    exact K.startNow (t := { u with late := u.late || decide (asked ≠ s.deviceTime) }) idle live
      ⟨rfl, rfl, rfl, rfl, rfl⟩ waits h

theorem Moves.release (i : Fin 32) (idle : m.popped = none)
    (waits : s.admission.Nodup → ∀ u, s.train i = some u → u.state = .waiting) (h : P m s) : P m (s.release i) := by
  unfold State.release
  split
  · exact h
  · rename_i u live
    split
    · exact K.startNow idle live ⟨rfl, rfl, rfl, rfl, rfl⟩ (fun once => waits once u live) h
    · exact K.armTrain _ idle live (fun once => waits once u live) h

theorem Moves.fire (stamp : Time) (i : Fin 32) (idle : m.popped = none)
    (waits : s.admission.Nodup → ∀ u, s.train i = some u → u.state = .waiting) (h : P m s) :
    P m (State.fire stamp s i) := by
  unfold State.fire
  split
  · exact h
  · rename_i u live
    exact K.armTrain _ idle live (fun once => waits once u live) h

omit K in
/-- The trains that wait are started one by one, each still waiting when its turn comes. -/
theorem foldl_starts {f : State → Fin 32 → State} (starts : Starts f)
    (step : ∀ (s : State) j, (s.admission.Nodup → ∀ u, s.train j = some u → u.state = .waiting) → P m s → P m (f s j))
    (l : List (Fin 32)) (s : State)
    (waits : s.admission.Nodup → l.Nodup ∧ ∀ j ∈ l, ∀ u, s.train j = some u → u.state = .waiting) (h : P m s) :
    P m (l.foldl f s) := by
  induction l generalizing s with
  | nil => exact h
  | cons j l ih =>
    refine ih _ (fun once => ?_) (step s j (fun once => (waits once).2 j List.mem_cons_self) h)
    rw [starts.admission] at once
    obtain ⟨apart, waiting⟩ := waits once
    rw [List.nodup_cons] at apart
    refine ⟨apart.2, fun k hk u live => ?_⟩
    rw [starts.other s j k (fun e => apart.1 (e ▸ hk))] at live
    exact waiting k (List.mem_cons_of_mem j hk) u live

theorem Moves.closeTrain_run {i : Fin 32} {t : Train} (live : s.train i = some t) (st : Status) (cascaded : Bool)
    (h : P m s) : P (m.closed (.train i) [t.tag]) (s.closeTrain i st cascaded) := by
  rw [State.closeTrain_of_train live]
  exact (K.closeTrain st _ live).run h

omit K in
/-- A work that ends and is reported has acted. -/
theorem Midway.closed_eq {o : Owner} (acted : m.popped = none ∨ m.popped = some o) (tags : List Tag) :
    m.closed o tags = { m with popped := none, unreported := m.unreported + 1, lost := tags ++ m.lost } := by
  have none : (m.forget o).popped = none := by
    obtain none | self := acted
    · simp [Midway.forget, none]
    · simp [Midway.forget, self]
  simp only [Midway.closed, Midway.forget] at none ⊢
  rw [none]

/-- The end of a train, its waiters released and the end reported (R56). -/
theorem Moves.endTrain (i : Fin 32) (st : Status) (acted : m.popped = none ∨ m.popped = some (.train i))
    (h : P m s) : P m.acted (s.endTrain i st) := by
  unfold State.endTrain
  split
  · rename_i free
    refine (K.unpop fun k u popped live => ?_).run h
    obtain none | self := acted
    · rw [none] at popped
      cases popped
    · rw [self] at popped
      rw [← Owner.train.inj (Option.some.inj popped), free] at live
      cases live
  · rename_i t live
    have closed := K.closeTrain_run live st false h
    rw [Midway.closed_eq acted] at closed
    dsimp only
    rw [State.waiters_eq]
    have released := foldl_starts starts_release (fun s j waits h => K.release j rfl waits h)
      (oldestWaiting (s.closeTrain i st false) (StartCondition.onEnd t.tag)) _ waiters_wait closed
    have settled := (K.settle rfl (starts_release.noneWaits _ t.tag)).run released
    exact K.reportEnd (Nat.le_add_left ..) (by simp) settled

theorem Moves.foldl_endTrain (st : Status) (idle : m.popped = none) (l : List (Fin 32)) (s : State) (h : P m s) :
    P m (l.foldl (fun r j => r.endTrain j st) s) := by
  induction l generalizing s with
  | nil => exact h
  | cons j l ih =>
    refine ih _ ?_
    have ended := K.endTrain j st (.inl idle) h
    rwa [Midway.acted_of_idle idle] at ended

/-- The end of a capture, the trains that wait on it lost (R91). -/
theorem Moves.endCapture (i : Fin 16) (st : Status) (acted : m.popped = none ∨ m.popped = some (.capture i))
    (h : P m s) : P m.acted (s.endCapture i st) := by
  cases live : s.capture i with
  | none =>
    simp only [State.endCapture, live]
    refine (K.unpop fun k u popped live => ?_).run h
    obtain none | self := acted
    · rw [none] at popped
      cases popped
    · rw [self] at popped
      cases popped
  | some c =>
    rw [State.endCapture_of_capture live]
    have closed := (K.closeCapture st live).run h
    rw [Midway.closed_eq acted] at closed
    exact K.reportEnd (Nat.le_add_left ..) (by simp) (K.foldl_endTrain .triggerLost rfl _ _ closed)

/-! Edges -/

/-- An edge's report: none, staged, or dropped and counted (R88). -/
theorem Moves.reportEdge {i : Fin 16} {c : Capture} (live : s.capture i = some c) (stamp : Time) (d : Direction)
    (h : P m s) : P m (s.reportEdge i c stamp d) := by
  obtain ⟨-, e⟩ | ⟨-, place, e⟩ | ⟨-, -, e⟩ := s.reportEdge_cases i c stamp d
  · rwa [e]
  · rw [e]
    exact (K.stageFree _ live place).run h
  · rw [e]
    exact (K.recapture (d := { c with dropped := min (c.dropped + 1) Config.shortCeiling }) live rfl rfl).run h

theorem Moves.takeEdge {i : Fin 16} {c : Capture} (idle : m.popped = none) (live : s.capture i = some c)
    (stamp : Time) (d : Direction) (h : P m s) : P m (s.takeEdge i c stamp d) := by
  rw [State.takeEdge_counted]
  have counted := (K.recapture (d := c.counted stamp) live rfl rfl).run h
  have reported := K.reportEdge (State.capture_setCapture_self ..) stamp d counted
  dsimp only
  generalize State.reportEdge _ i (c.counted stamp) stamp d = r at reported ⊢
  rw [State.waiters_eq]
  have fired := foldl_starts (starts_fire stamp) (fun s j waits h => K.fire stamp j idle waits h)
    (oldestWaiting r (StartCondition.onEdge c.tag (c.taken + 1))) r waiters_wait reported
  split
  · have ended := K.endCapture i .countReached (.inl idle) fired
    rwa [Midway.acted_of_idle idle] at ended
  · exact fired

theorem Moves.giveEdge (idle : m.popped = none) (l : Fin 8) (stamp : Time) (d : Direction) (i : Fin 16)
    (h : P m s) : P m (State.giveEdge l stamp d s i) := by
  unfold State.giveEdge
  split
  · exact h
  · rename_i c live
    split
    · exact K.takeEdge idle live stamp d h
    · exact h

theorem Moves.offer (idle : m.popped = none) (l : Fin 8) (stamp : Time) (d : Direction) (h : P m s) :
    P m (s.offer l stamp d) := by
  unfold State.offer
  generalize s.captureOrder = captures
  induction captures generalizing s with
  | nil => exact h
  | cons i captures ih => exact ih (K.giveEdge idle l stamp d i h)

theorem Moves.setInput (i : Fin 8) (x : InputLine) (h : P m s) : P m (s.setInput i x) :=
  (K.quiet (s' := s.setInput i x) rfl).run h

theorem Moves.confirm (idle : m.popped = none) (i : Fin 8) (c : Candidate) (h : P m s) : P m (s.confirm i c) :=
  K.offer idle i _ _ (K.setInput i _ h)

theorem Moves.filter (idle : m.popped = none) (i : Fin 8) (h : P m s) : P m (s.filter i) := by
  unfold State.filter
  dsimp only
  split
  · exact h
  · split
    · exact K.setInput i _ h
    · split
      · exact h
      · split
        · exact K.confirm idle i _ h
        · exact K.setInput i _ h

theorem Moves.pinChange (idle : m.popped = none) (i : Fin 8) (v : Level) (h : P m s) : P m (s.pinChange i v) := by
  obtain ⟨-, e⟩ | ⟨-, -, e⟩ := s.pinChange_cases i v
  · rw [e]
    exact K.setInput i _ h
  · obtain ⟨-, sampled⟩ | ⟨-, sampled⟩ := s.sample_cases i v (if s.refclk = .running then v else (s.input i).pin)
    · rw [e, sampled]
      exact K.setInput i _ h
    · rw [e, sampled]
      exact K.filter idle i (K.setInput i _ h)

end

end Sys2Proof.Machine
end

section
/-! PROOFS. What a record that passes its checks brings (chapters 3, 4 and 7): an admitted train or capture, and the
change that a DEFINE_RING makes. -/

namespace Sys2Proof.Machine

set_option Elab.async false

variable {s : State}

theorem eq_true_of_refuseIf_not {ok : Bool} {st : Status} (passes : refuseIf (!ok) st = none) : ok = true := by
  cases ok with
  | true => rfl
  | false => simp [refuseIf] at passes

theorem eq_false_of_refuseIf {fails : Bool} {st : Status} (passes : refuseIf fails st = none) : fails = false := by
  cases fails with
  | false => rfl
  | true => simp [refuseIf] at passes

theorem State.lookup_mem {g : Tag} {w : Work} (h : s.lookup g = some w) : (g, w) ∈ s.tagMap := by
  obtain ⟨⟨g', w'⟩, found, rfl⟩ := Option.map_eq_some_iff.mp h
  obtain rfl : g' = g := by simpa using List.find?_some found
  exact List.mem_of_find?_eq_some found

theorem State.not_mem_of_lookup_none {g : Tag} (h : (s.lookup g).isSome = false) : ∀ e ∈ s.tagMap, e.1 ≠ g := by
  intro e mem same
  rw [(State.lookup_isSome_iff g).mpr ⟨e, mem, same⟩] at h
  cases h

/-! START_TRAIN (R45 to R48) -/

theorem offsetBits_lt (x : BitVec 64) : offsetBits x < 2 ^ 32 := BitVec.isLt _

theorem startOf_offset_lt (b : StartTrainBody) : (startOf b).offset < 2 ^ 32 := by
  unfold startOf
  split
  · exact offsetBits_lt _
  · exact offsetBits_lt _
  · exact Nat.two_pow_pos 32
  · exact Nat.two_pow_pos 32
  · exact Nat.two_pow_pos 32

/-- The field check makes the segments sound (R45). -/
theorem State.newTrain_segmentsSound {h : Header} {b : StartTrainBody} (fields : s.startTrainOk h b = true)
    (l : Fin 16) (i : Fin 4) : (s.newTrain h b l i).SegmentsSound := by
  simp only [State.startTrainOk, Bool.and_eq_true, decide_eq_true_eq, List.all_eq_true] at fields
  obtain ⟨⟨⟨⟨⟨-, some, most⟩, words⟩, -⟩, -⟩, -⟩ := fields
  have count : (segmentsOf b).length = b.segmentCount.toNat := by
    simp only [segmentsOf, segmentWords, List.length_map, List.length_take, Vector.length_toList]
    omega
  refine ⟨count ▸ some, count ▸ most, fun g mem => ?_, startOf_offset_lt b⟩
  obtain ⟨w, word, rfl⟩ := List.mem_map.mp mem
  have ok := words w word
  simp only [segmentOk, Bool.and_eq_true, decide_eq_true_eq] at ok
  exact ⟨ok.2, BitVec.isLt _⟩

/-- A start time that an admission takes lies ahead (R47, R48). -/
theorem State.startTimeOf_future {b : StartTrainBody} {due : Time} {late : Bool}
    (time : s.startTimeOf b = some (due, late)) : isFuture s.deviceTime due = true := by
  have lead : isFuture s.deviceTime (after s.deviceTime Config.admissionLead) = true :=
    isFuture_after _ _ (by decide) (by decide)
  unfold State.startTimeOf at time
  split at time
  · split at time
    · rename_i enough
      obtain rfl := (Prod.mk.inj (Option.some.inj time)).1
      simp only [leadOk, Bool.and_eq_true, decide_eq_true_eq] at enough
      have least : 1 ≤ Config.admissionLead := by decide
      simp only [isFuture, Bool.and_eq_true, decide_eq_true_eq]
      exact ⟨least.trans enough.1, enough.2⟩
    · exact (Prod.mk.inj (Option.some.inj time)).1 ▸ lead
  · exact (Prod.mk.inj (Option.some.inj time)).1 ▸ lead
  · cases time
  · cases time

/-- The line of an admitted train has no owner or no successor (R33). -/
theorem State.claimable_of_lineRefusal {x : Line} {c : StartCondition} (passes : s.lineRefusal x c = none) :
    x.owner = none ∨ x.successor = none := by
  unfold State.lineRefusal at passes
  split at passes
  · cases passes
  · split at passes
    · exact .inl ‹_›
    · split at passes
      · rename_i free
        exact .inr free.1
      · cases passes

theorem State.reference_mem {c : StartCondition} (passes : s.referenceRefusal c = none) {g : Tag} {o : Nat}
    (waits : c = .afterEnd g o) : ∃ p, (g, Work.train p) ∈ s.tagMap := by
  subst waits
  unfold State.referenceRefusal at passes
  cases found : s.lookup g with
  | none => simp [found] at passes
  | some w =>
    cases w with
    | capture k => simp [found] at passes
    | train p => exact ⟨p, State.lookup_mem found⟩

/-- A START_TRAIN that passes its checks is admitted: WAITING, or with its START ahead (R48). -/
theorem State.admitTrain_of_check {i : Fin 4} {h : Header} {b : StartTrainBody} (running : s.device = .running)
    (idle : s.fetch = .idle) (passes : s.check i (.startTrain h b) = none) :
    ∃ k u, s.EnrollsTrain i k u ∧
      (u.state = .waiting ∧ s.admitTrain h b i = s.enrollTrain k u
        ∨ u.state ≠ .waiting ∧ ∃ due, isFuture s.deviceTime due = true
          ∧ s.admitTrain h b i = (s.enrollTrain k u).insert (.train k) .start due) := by
  have each := firstRefusal_eq_none.mp passes
  simp only [List.forall_mem_cons, List.not_mem_nil, false_imp_iff, implies_true, and_true] at each
  obtain ⟨fields, -, fresh, slot, line, reference, -, -⟩ := each
  have fields := eq_true_of_refuseIf_not fields
  have slot : s.freeTrain.isNone = false := eq_false_of_refuseIf slot
  obtain ⟨k, free⟩ : ∃ k, s.freeTrain = some k := by
    cases found : s.freeTrain with
    | none => simp [found] at slot
    | some k => exact ⟨k, rfl⟩
  have segments := State.newTrain_segmentsSound (s := s) fields
  simp only [State.startTrainOk, Bool.and_eq_true, decide_eq_true_eq] at fields
  obtain ⟨⟨⟨⟨⟨⟨⟨-, tag⟩, named⟩, -⟩, -⟩, -⟩, -⟩, -⟩ := fields
  obtain ⟨l, hl⟩ := Option.isSome_iff_exists.mp named
  rw [hl, Option.bind_some] at line
  have enrolls : s.EnrollsTrain i k (s.newTrain h b l i) := {
    free := by simpa using List.find?_some free
    running := running
    idle := idle
    tag := ⟨tag, State.not_mem_of_lookup_none (eq_false_of_refuseIf fresh)⟩
    ring := rfl
    line := State.claimable_of_lineRefusal line
    segments := segments l i
    reference := fun _ _ _ waits => State.reference_mem reference waits }
  refine ⟨k, _, enrolls, ?_⟩
  cases time : s.startTimeOf b with
  | none =>
    refine .inl ⟨by simp [State.newTrain, time], ?_⟩
    simp only [State.admitTrain, free, hl, time]
    rfl
  | some due =>
    refine .inr ⟨by simp [State.newTrain, time], due.1, State.startTimeOf_future time, ?_⟩
    simp only [State.admitTrain, free, hl, time]
    rfl

/-! ARM_CAPTURE (R81 to R84) -/

/-- An ARM_CAPTURE that passes its checks is admitted, and may make an entry (R84). -/
theorem State.admitCapture_of_check {i : Fin 4} {h : Header} {b : ArmCaptureBody} (running : s.device = .running)
    (idle : s.fetch = .idle) (passes : s.check i (.armCapture h b) = none) :
    ∃ k c, s.EnrollsCapture i k c ∧
      (s.admitCapture h b i = s.enrollCapture k c
        ∨ ∃ a due, Entry.legal { due := due, owner := .capture k, action := a } = true
          ∧ s.admitCapture h b i = (s.enrollCapture k c).insert (.capture k) a due) := by
  have each := firstRefusal_eq_none.mp passes
  simp only [List.forall_mem_cons, List.not_mem_nil, false_imp_iff, implies_true, and_true] at each
  obtain ⟨fields, -, fresh, slot, -⟩ := each
  have fields := eq_true_of_refuseIf_not fields
  have slot : s.freeCapture.isNone = false := eq_false_of_refuseIf slot
  obtain ⟨k, free⟩ : ∃ k, s.freeCapture = some k := by
    cases found : s.freeCapture with
    | none => simp [found] at slot
    | some k => exact ⟨k, rfl⟩
  simp only [State.armCaptureOk, Bool.and_eq_true, decide_eq_true_eq] at fields
  obtain ⟨⟨⟨⟨⟨⟨⟨⟨-, tag⟩, named⟩, -⟩, -⟩, -⟩, -⟩, -⟩, -⟩ := fields
  obtain ⟨l, hl⟩ := Option.isSome_iff_exists.mp named
  have enrolls : s.EnrollsCapture i k (s.newCapture h b l i) := {
    free := by simpa using List.find?_some free
    running := running
    idle := idle
    tag := ⟨tag, State.not_mem_of_lookup_none (eq_false_of_refuseIf fresh)⟩
    ring := rfl }
  refine ⟨k, _, enrolls, ?_⟩
  simp only [State.admitCapture, free, hl]
  cases (s.newCapture h b l i).state with
  | pending => exact .inr ⟨.openWindow, (s.newCapture h b l i).effectiveOpen, rfl, rfl⟩
  | opened =>
    by_cases closes : (s.newCapture h b l i).closeTime = 0
    · exact .inl (if_pos closes)
    · exact .inr ⟨.closeWindow, (s.newCapture h b l i).closeTime, rfl, if_neg closes⟩

/-! DEFINE_RING (R163 to R166) -/

/-- A DEFINE_RING that passes its checks names CR1 to CR3, and undefines a ring that holds nothing, or gives one a
legal size. -/
theorem State.defineRing_of_check {i : Fin 4} {h : Header} {b : DefineRingBody}
    (passes : s.check i (.defineRing h b) = none) :
    let k := Fin.ofNat 4 b.number.toNat
    k ≠ 0 ∧ (((s.ring k).state = .undefined ∨ (s.ring k).account = 0)
        ∧ s.defineRing k b = s.setRing k Ring.undefined
      ∨ ∃ base size level threshold holdoff, size ∈ crSizes
        ∧ s.defineRing k b = s.setRing k ((s.ring k).kept.define base size level threshold holdoff)) := by
  have each := firstRefusal_eq_none.mp passes
  simp only [List.forall_mem_cons, List.not_mem_nil, false_imp_iff, implies_true, and_true] at each
  obtain ⟨fields, -, busy⟩ := each
  have fields := eq_true_of_refuseIf_not fields
  have busy := eq_false_of_refuseIf busy
  simp only [defineRingOk, Bool.and_eq_true, Bool.or_eq_true, decide_eq_true_eq] at fields
  obtain ⟨⟨-, least, most⟩, sizes⟩ := fields
  generalize same : Fin.ofNat 4 b.number.toNat = k at busy ⊢
  have number : k.val = b.number.toNat := by
    rw [← same, Fin.ofNat]
    exact Nat.mod_eq_of_lt (by omega)
  refine ⟨fun zero => ?_, ?_⟩
  · rw [zero] at number
    simp only [Fin.val_zero] at number
    omega
  · by_cases none : b.size = 0
    · refine .inl ⟨?_, if_pos none⟩
      rw [none] at busy
      cases state : (s.ring k).state with
      | undefined => exact .inl rfl
      | active =>
        refine .inr ?_
        simp [State.ringBusy, state] at busy
        obtain ⟨⟨staged, owed⟩, other⟩ := busy
        have zero : (s.ring k).owed = 0 := by
          by_contra some
          exact other (owed some).2
        simp [Ring.account, staged, zero]
      | faulted =>
        refine .inr ?_
        simp [State.ringBusy, state] at busy
        simp [Ring.account, busy]
    · obtain ⟨⟨⟨⟨legal, -⟩, -⟩, -⟩, -⟩ := sizes.resolve_left none
      exact .inr ⟨_, _, _, _, _, legal, if_neg none⟩

end Sys2Proof.Machine
end

section
/-! PROOFS. Steps as moves (chapters 6 to 9): a law that every move carries is kept by the command unit, the control
block and the arbiter. -/

namespace Sys2Proof.Machine

set_option Elab.async false

/-- A law that every move carries, and the ends in cascade and the quiesce sweep. -/
structure Kept (P : Law) : Prop extends Moves .always P where
  cascade : ∀ {m s i t} st, s.train i = some t → t.state ≠ .waiting ∨ s.fetch.waiting = none →
    m.popped = none ∨ m.popped = some (.train i) → m.unreported = 0 → m.lost = [] → P m s →
    P m.acted (s.endTrainCascade i st)
  swept : ∀ {s}, s.device = .quiescing → P (.sweep []) s → P .rest (s.sweepOrder.foldl State.abort s)

variable {P : Law} {s : State}

/-! What stays of the state -/

/-- A SET_OUTPUT puts the line to its idle level (R26). -/
theorem Line.touched_set (l : Line) (d : Drive) (idle : Level) (f : FaultLevel) (high period : Nat) :
    l.Touched (l.set d idle f high period) where
  owner := rfl
  successor := rfl
  modulated _ := by cases idle <;> rfl

/-- An entry's place does not depend on the fetch state (R12). -/
theorem State.insert_fetch (s : State) (f : Fetch) (o : Owner) (a : Action) (due : Time) :
    ({ s with fetch := f } : State).insert o a due = { s.insert o a due with fetch := f } := by
  by_cases ahead : isFuture s.deviceTime due = true
  · simp only [State.insert, State.request, ahead, if_true, Option.getD_some]
    rfl
  · simp only [State.insert, State.request, ahead, if_false, Option.getD_none, Bool.false_eq_true]

/-- The checks of a record read no admission counter. -/
theorem State.check_admissionCounter (s : State) (n : BitVec 32) (i : Fin 4) (c : Submission) :
    ({ s with admissionCounter := n } : State).check i c = s.check i c := by
  cases c <;> rfl

/-- A record that asks for its place does not read the fetch state (R123). -/
theorem State.tryPlace_fetch (s : State) (f : Fetch) (returned : Time) (c : Submission) :
    ({ s with fetch := f } : State).tryPlace returned c = s.tryPlace returned c := rfl

theorem Ring.Eased.of_tables {r r' : Ring} (state : r'.state = r.state) (owed : r'.owed = r.owed)
    (staged : r'.staged = r.staged) (size : r'.size = r.size) (writeIndex : r'.writeIndex = r.writeIndex)
    (hostHead : r'.hostHead = r.hostHead) : r.Eased r' where
  state := state
  owed := owed
  staged := by rw [staged]
  sound sound := by rwa [Ring.Sound, state, size, writeIndex, hostHead]

theorem crSizes_pos {n : Nat} (h : n ∈ crSizes) : 0 < n := by
  revert n
  decide

/-- A record written leaves one fewer staged and the index below the size (R153). -/
theorem Ring.eased_wrote (r : Ring) (now : Time) : r.Eased (r.wrote.noteWrite now) where
  state := rfl
  owed := rfl
  staged := by
    change r.staged.tail.length ≤ _
    rw [List.length_tail]
    exact Nat.sub_le ..
  sound sound := by
    obtain undefined | ⟨size, -, head⟩ := sound
    · exact .inl undefined
    · exact .inr ⟨size, Nat.mod_lt _ (crSizes_pos size), head⟩

/-- A host head that passes the check lies below the size (R157). -/
theorem Ring.eased_acceptHead {r : Ring} {v : Nat} (now : Time) (accepted : r.checkHead v = .accepted) :
    r.Eased (r.acceptHead v now) where
  state := rfl
  owed := rfl
  staged := Nat.le_refl _
  sound sound := by
    obtain undefined | ⟨size, index, -⟩ := sound
    · exact .inl undefined
    · obtain ⟨-, e⟩ | ⟨-, -, e⟩ | ⟨inside, -, -⟩ := r.checkHead_cases v
      · rw [accepted] at e
        cases e
      · rw [accepted] at e
        cases e
      · exact .inr ⟨size, index, inside⟩

theorem State.discardRead_outstanding (s : State) : s.discardRead.fetch.outstanding = none := by
  cases reads : s.fetch <;> simp only [State.discardRead, reads] <;> rfl

theorem State.discardRead_device (s : State) : s.discardRead.device = s.device := by
  unfold State.discardRead
  split <;> rfl

/-- What the discard of a read leaves as it was (R120). -/
theorem State.discardRead_frame (s : State) :
    s.discardRead = { s with
      fetch := s.discardRead.fetch, discardedReads := s.discardRead.discardedReads
      heldEvents := s.discardRead.heldEvents } := by
  unfold State.discardRead
  split <;> rfl

theorem Line.halt_idle (l : Line) :
    l.halt.owner = none ∧ l.halt.successor = none
      ∧ l.halt.Modulated := by
  obtain ⟨drive, idle, faultLevel, highWidth, period, present, owner, successor, modulator⟩ := l
  cases faultLevel <;> cases present <;> exact ⟨rfl, rfl, rfl⟩

/-- A halt drops every work (R194). -/
theorem cleared_halt (on : s.device ≠ .off) (c : FatalCause) : Cleared s (s.halt c) := by
  have frame := s.discardRead_frame
  refine ⟨fun _ => Vector.getElem_replicate .., fun _ => Vector.getElem_replicate .., rfl, rfl, rfl, rfl,
    fun _ => Vector.getElem_replicate .., ?_, .inr rfl, fun _ => ⟨on, ?_, ?_, ?_⟩, .inl ⟨?_, ?_⟩, ?_, ?_, rfl⟩
  · intro l
    have line : (s.halt c).line l = (s.dropAll.line l).halt := Vector.getElem_ofFn ..
    rw [line]
    exact Line.halt_idle _
  · exact (congrArg State.sqSize frame :)
  · exact (congrArg State.head frame :)
  · exact (congrArg State.tail frame :)
  · exact (congrArg State.deviceTime frame :)
  · exact (congrArg State.timeRestart frame :)
  · exact (congrArg State.resetHeld frame :)
  · exact (congrArg State.refclk frame :)

/-- A reset drops every work (R196). -/
theorem cleared_resetBlocks (s : State) : Cleared s s.resetBlocks := by
  have frame := s.discardRead_frame
  refine ⟨fun _ => Vector.getElem_replicate .., fun _ => Vector.getElem_replicate .., rfl, rfl, rfl, rfl,
    fun _ => Vector.getElem_replicate .., ?_, .inl rfl, DeviceState.noConfusion, .inr rfl, ?_, ?_, rfl⟩
  · intro l
    have line : s.resetBlocks.line l = Line.reset := Vector.getElem_replicate ..
    rw [line]
    exact ⟨rfl, rfl, rfl⟩
  · exact (congrArg State.resetHeld frame :)
  · exact (congrArg State.refclk frame :)

/-- The record that is processed targets an ACTIVE ring, or CR0 (R122). -/
theorem State.target_active (s : State) (h : Header) : (s.ring (s.target h)).state = .active ∨ s.target h = 0 := by
  unfold State.target State.namedActive
  split
  · exact .inr rfl
  · split
    · exact .inl ‹_›
    · exact .inr rfl

/-! Boundaries and CANCEL -/

section
variable (K : Kept P) {m : Midway}
include K

theorem Kept.quietly {s' : State} (h : P m s) (q : QuietFrom s s') : P m s' := (K.quiet q).run h

theorem Kept.boundary (i : Fin 32) (h : P (.owing (.train i)) s) : P .rest (s.boundary i) := by
  cases live : s.train i with
  | none =>
    simp only [State.boundary, live]
    refine (K.unpop fun k u popped live' => ?_).run h
    rw [← Owner.train.inj (Option.some.inj popped), live] at live'
    cases live'
  | some t =>
    by_cases more : t.index + 1 < t.segments.length
    · rw [State.boundary_of_next live more]
      exact K.enterSegment rfl live ⟨rfl, rfl, rfl, rfl, rfl⟩ (.inl Iff.rfl) (.inr more) h
    · rw [State.boundary_of_last live (Nat.le_of_not_lt more)]
      have counted := (K.retrain (t := { t with repsDone := t.repsAfter }) live ⟨rfl, rfl, rfl, rfl, rfl⟩
        (.inl Iff.rfl)).run h
      have live' : (s.setTrain i (some { t with repsDone := t.repsAfter })).train i =
          some { t with repsDone := t.repsAfter } := State.train_setTrain_self ..
      dsimp only
      split
      · rename_i stopping
        split
        · exact K.cascade .stopped live' (.inl (by simp [stopping])) (.inr rfl) rfl rfl counted
        · exact K.endTrain i .stopped (.inr rfl) counted
      · split
        · exact K.endTrain i .ok (.inr rfl) counted
        · exact K.enterSegment rfl live' ⟨rfl, rfl, rfl, rfl, rfl⟩ (.inl Iff.rfl) (.inl rfl) counted

variable {ring : Fin 4}

theorem Kept.cancelNow (i : Fin 32) (cascade : Bool) (free : s.fetch.waiting = none) (h : P (.holding ring) s) :
    P (.holding ring) (s.cancelNow i cascade) := by
  unfold State.cancelNow
  split
  · exact h
  · rename_i t live
    split
    · exact K.cascade .cancelled live (.inr free) (.inl rfl) rfl rfl h
    · exact K.endTrain i .cancelled (.inl rfl) h

theorem Kept.cancelAtPeriodEnd (i : Fin 32) (cascade : Bool) (free : s.fetch.waiting = none)
    (h : P (.holding ring) s) : P (.holding ring) (s.cancelAtPeriodEnd i cascade) := by
  unfold State.cancelAtPeriodEnd
  split
  · exact h
  · rename_i t live
    split
    · rename_i running
      refine (K.retrain (t := { t with state := .stopping, stopKind := if cascade then .cascade else .plain }) live
        ⟨rfl, rfl, rfl, rfl, rfl⟩ (.inl ?_)).run h
      simp [running]
    · exact h
    · exact K.cancelNow i cascade free h
    · exact K.cancelNow i cascade free h

theorem Kept.doCancel (c : Header) (free : s.fetch.waiting = none) (h : P (.holding ring) s) :
    P (.holding ring) (s.doCancel c) := by
  unfold State.doCancel
  split
  · split
    · exact K.cancelNow _ _ free h
    · exact K.cancelAtPeriodEnd _ _ free h
  · exact K.endCapture _ .cancelled (.inl rfl) h
  · exact h

/-! The command unit -/

/-- The record that is processed is answered. -/
theorem Kept.answered (r : Completion) (h : P (.holding ring) s) : P .rest (s.stageFinal ring r) := (K.answer r).run h

theorem Kept.doFence {c : Header} {timeout : BitVec 64} (running : s.device = .running) (idle : s.fetch = .idle)
    (fields : fenceOk c timeout = true) (h : P (.holding ring) s) : P .rest (s.doFence c timeout ring) := by
  have limit : offsetBits timeout ≠ 0 := by
    simp only [fenceOk, Bool.and_eq_true, decide_eq_true_eq] at fields
    exact fields.2
  unfold State.doFence
  dsimp only
  split
  · exact K.answered _ h
  · rename_i some
    have waits := (K.enrollFence c.tag running idle some).run h
    have ahead := isFuture_after_offset s.deviceTime limit (offsetBits_lt timeout)
    have entered := (K.insertEntry (s := s.enrollFence ring c.tag) (o := .fence) (a := .timeout)
      (due := after s.deviceTime (offsetBits timeout)) rfl rfl rfl fun _ _ other => nomatch other).run waits
    exact State.insert_fetch .. ▸ entered

theorem Kept.doSetOutput (c : Header) (b : SetOutputBody) {m : Midway} (h : P m s) : P m (s.doSetOutput c b) := by
  unfold State.doSetOutput
  split
  · exact (K.touchLine (Line.touched_set ..)).run h
  · exact h

theorem Kept.doSetInput (c : Header) (b : SetInputBody) {m : Midway} (h : P m s) : P m (s.doSetInput c b) := by
  unfold State.doSetInput
  split
  · exact K.setInput _ _ h
  · exact h

theorem Kept.admitTrain {c : Header} {b : StartTrainBody} (running : s.device = .running) (idle : s.fetch = .idle)
    (passes : s.check ring (.startTrain c b) = none) (h : P (.holding ring) s) :
    P .rest (s.admitTrain c b ring) := by
  obtain ⟨k, u, enrolls, ⟨waits, e⟩ | ⟨awake, due, ahead, e⟩⟩ := State.admitTrain_of_check running idle passes
  · rw [e]
    have enrolled := (K.enrollTrain enrolls).run h
    rwa [if_pos waits] at enrolled
  · rw [e]
    have enrolled := (K.enrollTrain enrolls).run h
    rw [if_neg awake] at enrolled
    have there : (s.enrollTrain k u).train k = some u := State.train_setTrain_self ..
    exact (K.insertEntry (s := s.enrollTrain k u) (o := .train k) rfl (congrArg Option.isSome there :) rfl
      fun _ _ _ _ _ => ahead).run enrolled

theorem Kept.admitCapture {c : Header} {b : ArmCaptureBody} (running : s.device = .running) (idle : s.fetch = .idle)
    (passes : s.check ring (.armCapture c b) = none) (h : P (.holding ring) s) :
    P .rest (s.admitCapture c b ring) := by
  obtain ⟨k, x, enrolls, e | ⟨a, due, legal, e⟩⟩ := State.admitCapture_of_check running idle passes
  · rw [e]
    exact (K.unpop (m := .owing (.capture k)) fun _ _ other => nomatch other).run ((K.enrollCapture enrolls).run h)
  · rw [e]
    have there : (s.enrollCapture k x).capture k = some x := State.capture_setCapture_self ..
    exact (K.insertEntry (s := s.enrollCapture k x) (o := .capture k) rfl (congrArg Option.isSome there :) legal
      fun _ _ other => nomatch other).run ((K.enrollCapture enrolls).run h)

theorem Kept.defineRing {c : Header} {b : DefineRingBody} (running : s.device = .running)
    (passes : s.check ring (.defineRing c b) = none) (h : P (.holding ring) s) :
    P (.holding ring) (s.defineRing (Fin.ofNat 4 b.number.toNat) b) := by
  obtain ⟨other, ⟨spare, e⟩ | ⟨base, size, level, threshold, holdoff, legal, e⟩⟩ := State.defineRing_of_check passes
  · rw [e]
    exact (K.undefineRing other spare).run h
  · rw [e]
    exact (K.redefineRing _ _ _ _ _ other running legal).run h

theorem Kept.accept {returned : Time} {c : Submission} (running : s.device = .running)
    (idle : s.fetch = .idle) (awake : s.resetHeld = false) (passes : s.check ring c = none)
    (h : P (.holding ring) s) : P .rest (s.accept ring returned c) := by
  let n : State := { s with admissionCounter := s.admissionCounter + 1 }
  have counted : P (.holding ring) n := K.quietly (s' := n) h rfl
  have passes : n.check ring c = none := (s.check_admissionCounter _ ring c).trans passes
  have free : n.fetch.waiting = none := by
    change s.fetch.waiting = none
    rw [idle]
    rfl
  cases c with
  | nop h' => exact K.answered _ counted
  | readTime h' => exact K.answered _ counted
  | defineRing h' b => exact K.answered _ (K.defineRing running passes counted)
  | setOutput h' b => exact K.answered _ (K.doSetOutput h' b counted)
  | setInput h' b => exact K.answered _ (K.doSetInput h' b counted)
  | startTrain h' b => exact K.admitTrain (s := n) running idle passes counted
  | armCapture h' b => exact K.admitCapture (s := n) running idle passes counted
  | cancel h' => exact K.answered _ (K.doCancel h' free counted)
  | fence h' timeout =>
    have fields := eq_true_of_refuseIf_not (firstRefusal_eq_none.mp passes _ List.mem_cons_self)
    exact K.doFence running idle fields counted
  | adjustTime h' v =>
    have live := eq_false_of_refuseIf (firstRefusal_eq_none.mp passes _ (List.mem_cons_of_mem _
      (List.mem_cons_of_mem _ List.mem_cons_self)))
    exact K.answered _ ((K.adjust _ live idle awake).run counted)
  | unknown k h' => simp [State.check] at passes

theorem Kept.idleUnit (free : s.fetch.waiting = none) (h : P m s) : P m { s with fetch := .idle } :=
  (K.refetch (f := .idle) free rfl fun _ none => nomatch none).run h

theorem Kept.process (returned : Time) (c : Submission) (running : s.device = .running)
    (free : s.fetch.waiting = none) (awake : s.resetHeld = false) (h : P (.holding ring) s) :
    P .rest (s.process ring returned c) := by
  have idle := K.idleUnit free h
  refine K.issueRead ?_
  split
  · exact K.answered _ idle
  · rename_i passes
    exact K.accept running rfl awake passes idle

theorem Kept.tryPlace (returned : Time) (c : Submission) (free : s.fetch.waiting = none) (serving : s.Serving)
    (awake : s.resetHeld = false) (h : P .rest s) : P .rest (s.tryPlace returned c) := by
  have active := (s.target_active c.header).imp_right fun zero => And.intro zero serving
  obtain ⟨place, running, e⟩ | ⟨place, -, e⟩ | ⟨-, e⟩ := s.tryPlace_cases returned c
  · rw [e]
    exact K.process returned c running free awake ((K.reserve place active).run h)
  · rw [e]
    exact K.answered _ (K.idleUnit (s := s.reserve (s.target c.header)) free ((K.reserve place active).run h))
  · rw [e]
    exact (K.refetch (f := .stalled c returned) free rfl fun _ none => nomatch none).run h

theorem Kept.retry (serving : s.Serving) (awake : s.resetHeld = false) (h : P .rest s) : P .rest s.retry := by
  obtain ⟨c, returned, held, e⟩ | ⟨-, e⟩ := s.retry_cases
  · rw [e]
    refine K.tryPlace returned c ?_ serving awake h
    rw [held]
    rfl
  · rwa [e]

theorem Kept.readReturned (of : ReadId) (c : Submission) (awake : s.resetHeld = false) (h : P .rest s) :
    P .rest (s.readReturned of c) := by
  unfold State.readReturned
  split
  · exact K.quietly h rfl
  · split
    · rename_i reads
      split
      · rename_i running
        have free : s.fetch.waiting = none := by
          rw [reads]
          rfl
        have advanced := (K.advanceHead running free).run h
        exact K.tryPlace (s := { s with head := (s.head + 1) % s.sqSize.toNat, fetch := .idle }) s.deviceTime c rfl
          (.inl (.inl running)) awake advanced
      · exact h
    · exact h

/-! The control block -/

theorem Kept.halt (c : FatalCause) (on : s.device ≠ .off) (h : P .rest s) : P .rest (s.halt c) :=
  (K.clear (cleared_halt on c)).run h

theorem Kept.readFailed (of : ReadId) (h : P .rest s) : P .rest (s.readFailed of) := by
  unfold State.readFailed
  split
  · exact K.quietly h rfl
  · split
    · rename_i reads
      split
      · rename_i running
        refine K.halt _ (by simp [running]) (K.idleUnit ?_ h)
        rw [reads]
        rfl
      · exact h
    · exact h

theorem Kept.testDrain (h : P .rest s) : P .rest s.testDrain := by
  obtain ⟨quiescing, -, e⟩ | ⟨-, e⟩ := s.testDrain_cases
  · rw [e]
    exact (K.toOff _ _ _ quiescing).run h
  · rwa [e]

/-- A read that is discarded leaves the unit IDLE, and its answer, where it is held, a discarded read's (R120). -/
theorem Kept.discardRead {m : Midway} (h : P m s) : P m s.discardRead := by
  unfold State.discardRead
  split
  · rename_i reads
    have free : s.fetch.waiting = none := by
      rw [reads]
      rfl
    have idle := K.idleUnit free h
    exact K.quietly (K.discardHeld.run idle) rfl
  · exact h

/-- The quiesce of a part whose read has been discarded. -/
theorem Kept.quiesceFrom (running : s.device = .running) (none : s.fetch.outstanding = none) (h : P .rest s) :
    P .rest (({ s with device := .quiescing, quiesceElapsed := 0 } : State).sweepOrder.foldl State.abort
      { s with device := .quiescing, quiesceElapsed := 0 }).testDrain :=
  K.testDrain (K.swept rfl ((K.beginSweep running none).run h))

theorem Kept.beginQuiesce (running : s.device = .running) (h : P .rest s) : P .rest s.beginQuiesce :=
  K.quiesceFrom (s.discardRead_device.trans running) s.discardRead_outstanding (K.discardRead h)

theorem Kept.writeCtrl (enable softReset : Bool) (h : P .rest s) : P .rest (s.writeCtrl enable softReset) := by
  unfold State.writeCtrl
  split
  · exact (K.clear (cleared_resetBlocks s)).run h
  · split
    · rename_i off
      unfold State.tryEnable
      split
      · exact (K.enterRunning off ‹_›).run h
      · exact K.quietly h rfl
    · exact h
    · exact h
    · exact K.beginQuiesce ‹_› h
    · exact h
    · exact h

theorem Kept.writeSqTail (v : Word) (h : P .rest s) : P .rest (s.writeSqTail v) := by
  unfold State.writeSqTail
  split
  · exact h
  · exact h
  · rename_i running
    split
    · exact K.issueRead ((K.setTail ‹_›).run h)
    · exact K.halt _ (by simp [running]) h
  · rename_i quiescing
    split
    · exact (K.setTail ‹_›).run h
    · exact K.halt _ (by simp [quiescing]) h

theorem Kept.failHead {i : Fin 4} (c : FatalCause) (serves : s.device = .running ∨ s.device = .quiescing)
    (active : (s.ring i).state = .active) (awake : s.resetHeld = false) (h : P .rest s) :
    P .rest (s.failHead i c) := by
  unfold State.failHead
  split
  · refine K.halt c (fun off => ?_) h
    rw [off] at serves
    simp at serves
  · exact K.retry (s := s.faulted i) (.inl serves) awake ((K.faultRing ‹_› active).run h)

theorem Kept.writeCrHead (i : Fin 4) (v : Word) (awake : s.resetHeld = false) (h : P .rest s) :
    P .rest (s.writeCrHead i v) := by
  unfold State.writeCrHead
  split
  · rename_i checked
    split
    · exact K.failHead _ checked.1 checked.2 awake h
    · exact K.failHead _ checked.1 checked.2 awake h
    · exact (K.easeRing (Ring.eased_acceptHead _ ‹_›)).run h
  · exact h

theorem Kept.writeWord (offset : Nat) (v : Word) (awake : s.resetHeld = false) (h : P .rest s) :
    P .rest (s.writeWord offset v) := by
  unfold State.writeWord
  split
  · exact K.writeCtrl _ _ h
  · split
    · exact (K.configure v s.sqBaseHi s.sqSize ‹_›).run h
    · exact h
  · split
    · exact (K.configure s.sqBaseLo v s.sqSize ‹_›).run h
    · exact h
  · split
    · exact (K.configure s.sqBaseLo s.sqBaseHi v ‹_›).run h
    · exact h
  · exact K.writeSqTail v h
  · split
    · exact K.quietly h rfl
    · exact h
  · split
    · exact K.quietly h rfl
    · exact h
  · split
    · exact K.quietly h rfl
    · exact h
  · exact K.writeCrHead 0 v awake h
  · exact K.writeCrHead 1 v awake h
  · exact K.writeCrHead 2 v awake h
  · exact K.writeCrHead 3 v awake h
  · exact h

/-! The arbiter -/

omit K in
theorem quietFrom_sendMessage (s : State) (i : Fin 4) : QuietFrom s (s.sendMessage i) := by
  unfold State.sendMessage
  dsimp only
  split
  · rfl
  · split <;> rfl

omit K in
theorem State.writeRecord_cases (s : State) (i : Fin 4) :
    s.writeRecord i = s ∨ QuietFrom (s.setRing i ((s.ring i).wrote.noteWrite s.deviceTime)) (s.writeRecord i) := by
  unfold State.writeRecord
  dsimp only
  split
  · exact .inl rfl
  · exact .inr rfl

theorem Kept.writeRecord (i : Fin 4) (h : P m s) : P m (s.writeRecord i) := by
  obtain e | quiet := s.writeRecord_cases i
  · rwa [e]
  · exact (K.quiet quiet).run ((K.easeRing (Ring.eased_wrote _ _)).run h)

omit K in
theorem State.writeRecord_frame (s : State) (i : Fin 4) :
    (s.writeRecord i).resetHeld = s.resetHeld ∧ ∀ k, ((s.writeRecord i).ring k).state = (s.ring k).state := by
  unfold State.writeRecord
  dsimp only
  split
  · exact ⟨rfl, fun _ => rfl⟩
  · refine ⟨rfl, fun k => ?_⟩
    change ((s.setRing i _).ring k).state = _
    rw [State.ring_setRing]
    split
    · subst i
      rfl
    · rfl

theorem Kept.serveRing {i : Fin 4} (candidate : (s.ring i).hasCandidate = true) (awake : s.resetHeld = false)
    (h : P .rest s) : P .rest (s.serveRing i) := by
  have active : (s.ring i).state = .active := ((s.ring i).hasCandidate_iff.mp candidate).1
  have frame := s.writeRecord_frame i
  unfold State.serveRing
  split
  · refine (K.quiet (quietFrom_sendMessage _ i)).run ((K.easeRing ?_).run h)
    exact Ring.Eased.of_tables rfl rfl rfl rfl rfl rfl
  · exact K.testDrain (K.retry (.inr ⟨i, (frame.2 i).trans active⟩) (frame.1.trans awake) (K.writeRecord i h))

theorem Kept.chooseWrite (awake : s.resetHeld = false) (h : P .rest s) : P .rest s.chooseWrite := by
  unfold State.chooseWrite
  split
  · exact (K.quiet (quietFrom_sendMessage _ 0)).run (K.quietly h rfl)
  · split
    · exact (K.quiet (quietFrom_sendMessage _ _)).run (K.quietly h rfl)
    · split
      · exact h
      · rename_i i served
        refine K.serveRing ?_ awake h
        have best := s.servedRing_bestOf
        rw [served] at best
        exact best.1

end

end Sys2Proof.Machine
end

section
/-! PROOFS. Laws that speak of no work in particular, and the clock and the held events among them (R2): what a host
event leaves of these. -/

namespace Sys2Proof.Machine

set_option Elab.async false

variable {P : Law} {s : State}

/-! Laws that do not see what a state midway in a step owes -/

/-- The law reads nothing of what is owed but that the sweep is under way. -/
def Law.Blind (P : Law) : Prop := ∀ {m m' s}, m.sweeping = m'.sweeping → P m s → P m' s

section
variable (K : Moves .always P) (blind : P.Blind) {m : Midway}
include K blind

theorem Moves.closeTrain_blind (i : Fin 32) (st : Status) (cascaded : Bool) (h : P m s) :
    P m (s.closeTrain i st cascaded) := by
  cases live : s.train i with
  | none => simpa only [State.closeTrain, live] using h
  | some t =>
    have same : (m.closed (.train i) [t.tag]).sweeping = m.sweeping := by
      simp only [Midway.closed, Midway.forget]
    exact blind same (K.closeTrain_run live st cascaded h)

theorem Moves.reportEnd_blind (h : P m s) : P m s.reportEnd := by
  let one : Midway := { m with unreported := 1, popped := none }
  have told : P one.reported s.reportEnd :=
    K.reportEnd (Nat.le_refl 1) (fun none => nomatch none) (blind (m := m) rfl h)
  exact blind (m := one.reported) rfl told

theorem Moves.abort_blind (o : Owner) (h : P m s) : P m (s.abort o) := by
  cases o with
  | train i => exact K.reportEnd_blind blind (K.closeTrain_blind blind i .aborted false h)
  | capture i =>
    cases live : s.capture i with
    | none => simpa only [State.abort, State.abortCapture, live] using h
    | some c =>
      simp only [State.abort, State.abortCapture, live]
      exact K.reportEnd_blind blind (blind (by simp only [Midway.closed, Midway.forget])
        ((K.closeCapture .aborted live).run h))
  | fence =>
    cases waits : s.fetch with
    | fenced f =>
      simp only [State.abort, State.abortFence, waits]
      exact blind (by simp only [Midway.forget]) ((K.endFence 0 f.count .aborted waits).run h)
    | idle => simpa only [State.abort, State.abortFence, waits] using h
    | reading r => simpa only [State.abort, State.abortFence, waits] using h
    | stalled c t => simpa only [State.abort, State.abortFence, waits] using h

omit K blind in
theorem foldl_keeps {α : Type} {f : State → α → State} (step : ∀ s a, P m s → P m (f s a)) (l : List α)
    (h : P m s) : P m (l.foldl f s) := by
  induction l generalizing s with
  | nil => exact h
  | cons a l ih => exact ih (step s a h)

theorem Moves.endTrainCascade_blind (i : Fin 32) (st : Status) (h : P m s) : P m (s.endTrainCascade i st) := by
  unfold State.endTrainCascade
  split
  · exact h
  · refine K.reportEnd_blind blind (K.closeTrain_blind blind i st false (foldl_keeps (fun s j h => ?_) _ h))
    exact K.reportEnd_blind blind (K.closeTrain_blind blind j .cancelled true h)

/-- Such a law is kept by the ends in cascade and the sweep too, where it holds still at the sweep's end. -/
theorem Kept.of_blind (calm : ∀ {s}, s.device = .quiescing → P (.sweep []) s →
      P (.sweep []) (s.sweepOrder.foldl State.abort s) → P .rest (s.sweepOrder.foldl State.abort s)) : Kept P where
  toMoves := K
  cascade {m _ i _} st _ _ _ _ _ h := blind (m := m) rfl (K.endTrainCascade_blind blind i st h)
  swept quiescing h := calm quiescing h (foldl_keeps (fun _ o h => K.abort_blind blind o h) _ h)

end

/-! The clock and the held events -/

/-- The clock, the hold of a reset and the held events are as `p` says; an answer held may become a discarded
read's. -/
def Law.host (p : Bool → RefClock → List HostEvent → Prop) : Law := fun _ s => p s.resetHeld s.refclk s.heldEvents

/-- What is claimed of the held events is claimed of them with their answers a discarded read's, too. -/
abbrev HostClaim (p : Bool → RefClock → List HostEvent → Prop) : Prop :=
  ∀ r c l, p r c l → p r c (l.map HostEvent.ofDiscarded)

theorem State.discardRead_heldEvents (s : State) : s.discardRead.heldEvents = s.heldEvents
    ∨ s.discardRead.heldEvents = s.heldEvents.map HostEvent.ofDiscarded := by
  unfold State.discardRead
  split
  · exact .inr rfl
  · exact .inl rfl

theorem Moves.host {p : Bool → RefClock → List HostEvent → Prop} (claim : HostClaim p) :
    Moves .always (Law.host p) where
  quiet q _ _ h := by rw [q]; exact h
  settle _ _ _ _ h := h
  unpop _ _ _ h := h
  closeTrain _ _ _ _ _ h := h
  closeCapture _ _ _ _ h := h
  endFence _ _ _ _ _ _ h := h
  lowerCount _ _ _ _ _ h := h
  reportNone _ _ _ _ h := h
  retrain _ _ _ _ _ h := h
  wake _ _ _ _ _ _ _ h := h
  insertEntry _ _ _ _ _ _ h := by rw [State.insert_eq]; exact h
  recapture _ _ _ _ _ h := h
  touchLine _ _ _ h := h
  easeRing _ _ _ h := h
  faultRing _ _ _ _ h := h
  stageFree _ _ _ _ _ h := h
  reserve _ _ _ _ h := h
  answer _ _ _ h := h
  undefineRing _ _ _ _ h := h
  redefineRing _ _ _ _ _ _ _ _ _ _ h := h
  enrollTrain _ _ _ h := h
  enrollCapture _ _ _ h := h
  enrollFence _ _ _ _ _ _ h := h
  adjust _ _ _ _ _ _ h := h
  refetch _ _ _ _ _ h := h
  advanceHead _ _ _ _ h := h
  setTail _ _ _ h := h
  discardHeld _ _ h := claim _ _ _ h
  clear {s s'} c _ _ h := by
    unfold Law.host at *
    rw [c.resetHeld, c.refclk, c.heldEvents]
    obtain same | discarded := s.discardRead_heldEvents
    · rwa [same]
    · rw [discarded]
      exact claim _ _ _ h
  toOff _ _ _ _ _ _ h := h
  enterRunning _ _ _ _ h := h
  configure _ _ _ _ _ _ h := h
  beginSweep _ _ _ _ h := h

theorem Kept.host {p : Bool → RefClock → List HostEvent → Prop} (claim : HostClaim p) : Kept (Law.host p) :=
  Kept.of_blind (Moves.host claim) (fun _ h => h) fun _ _ h => h

/-- A register write releases no reset. -/
theorem State.writeWord_awake (offset : Nat) (v : Word) (awake : s.resetHeld = false) :
    (s.writeWord offset v).resetHeld = false :=
  (Kept.host (p := fun r _ _ => r = false) fun _ _ _ h => h).writeWord offset v awake awake

/-- A part that listens still does after a register write. -/
theorem State.writeWord_listening (offset : Nat) (v : Word) (listens : s.Listening) :
    (s.writeWord offset v).Listening := by
  refine (Kept.host (p := fun r c l => r = false ∧ c = .running ∧ l = []) ?_).writeWord offset v listens.1 listens
  rintro r c l ⟨hr, hc, rfl⟩
  exact ⟨hr, hc, rfl⟩

end Sys2Proof.Machine
end

section
/-! PROOFS. Register writes of any width (chapter 10): where the word at an offset goes, and what a 64-bit write is. -/

namespace Sys2Proof.Machine

set_option Elab.async false

variable {s : State}

theorem exec_configurationRegisterWrite (listens : s.Listening) (o : BitVec 8) (w : RegisterWrite) :
    exec (.configurationRegisterWrite o w) s = .next (s.writeWindow o w) :=
  congrArg Host.Outcome.next (State.hostEvent_of_listening listens _)

/-- An offset that takes no write ignores it (R199). -/
theorem State.writeWord_of_not_mem {n : Nat} (v : Word)
    (out : n ∉ [0x04, 0x18, 0x1C, 0x20, 0x24, 0x28, 0x2C, 0x30, 0x40, 0x44, 0x48, 0x4C]) : s.writeWord n v = s := by
  unfold State.writeWord
  split <;> simp_all

/-- The configuration registers ignore a write outside OFF (R186). -/
theorem State.writeWord_of_on {o : BitVec 8} (v : Word) (on : s.device ≠ .off)
    (register : o ∈ ([0x18, 0x1C, 0x20, 0x28, 0x2C, 0x30] : List (BitVec 8))) : s.writeWord o.toNat v = s := by
  simp only [List.mem_cons, List.not_mem_nil, or_false] at register
  obtain rfl | rfl | rfl | rfl | rfl | rfl := register <;> exact if_neg on

theorem State.writeWord_crHead (i : Fin 4) (v : Word) : s.writeWord (0x40 + 4 * i.val) v = s.writeCrHead i v := by
  match i with
  | 0 => rfl
  | 1 => rfl
  | 2 => rfl
  | 3 => rfl

/-- Settles O35: each register takes the word at its offset by its own rule, and a 64-bit write is two. -/
theorem configurationRegistersTakeWritesInOff : Obligations.ConfigurationRegistersTakeWritesInOff := by
  intro s v listens
  have word (o : BitVec 8) : exec (.configurationRegisterWrite o (.word v)) s = .next (s.writeWord o.toNat v) :=
    exec_configurationRegisterWrite listens o (.word v)
  refine ⟨fun off => ?_, fun on o register => ?_, ?_, ?_, fun i => ?_, fun o out => ?_, fun o => ?_,
    fun o w t inside first => ?_⟩
  · simp only [word]
    exact ⟨congrArg _ (if_pos off), congrArg _ (if_pos off), congrArg _ (if_pos off), congrArg _ (if_pos off),
      congrArg _ (if_pos off), congrArg _ (if_pos off)⟩
  · rw [word, State.writeWord_of_on v on register]
  · have ctrl (enable reset : Bool) : s.hostEvent (.ctrl enable reset) = s.writeCtrl enable reset :=
      State.hostEvent_of_listening listens _
    rw [word]
    change Host.Outcome.next (s.writeCtrl (v.getLsbD 0) (v.getLsbD 1)) = _
    cases v.getLsbD 1 with
    | true => exact congrArg Host.Outcome.next (ctrl (v.getLsbD 0) true).symm
    | false =>
      cases v.getLsbD 0 with
      | true => exact congrArg Host.Outcome.next (ctrl true false).symm
      | false => exact congrArg Host.Outcome.next (ctrl false false).symm
  · rw [word]
    exact congrArg Host.Outcome.next (State.hostEvent_of_listening listens (.sqTail v)).symm
  · have offset : (BitVec.ofNat 8 (0x40 + 4 * i.val)).toNat = 0x40 + 4 * i.val := by
      rw [BitVec.toNat_ofNat]
      omega
    rw [word, offset, State.writeWord_crHead]
    exact congrArg Host.Outcome.next (State.hostEvent_of_listening listens (.crHead i v)).symm
  · rw [word, State.writeWord_of_not_mem]
    intro mem
    refine out ?_
    simp only [List.mem_cons, List.not_mem_nil, or_false] at mem ⊢
    simp only [BitVec.toNat_eq]
    exact mem
  · exact exec_configurationRegisterWrite listens o .narrow
  · have after : (o + 4).toNat = o.toNat + 4 := by
      rw [BitVec.toNat_add]
      exact Nat.mod_eq_of_lt inside
    obtain rfl : s.writeWord o.toNat v = t := Host.Outcome.next.inj ((word o).symm.trans first)
    rw [exec_configurationRegisterWrite listens,
      exec_configurationRegisterWrite (State.writeWord_listening _ _ listens)]
    simp only [State.writeWindow, after, extract_top, extract_within w v (show 0 + 32 ≤ 32 from Nat.le_refl _)]
    simp

end Sys2Proof.Machine
end

section
/-! PROOFS. The host link and the clock (R2): events taken at once, held, and taken when ticks come again. -/

namespace Sys2Proof.Machine

set_option Elab.async false

variable {s : State}

/-! When an event is held, and when it arrives -/

theorem State.holdsHost_iff : s.holdsHost = true ↔ s.refclk ≠ .running ∨ s.heldEvents ≠ [] := by
  simp [State.holdsHost]

theorem HostEvent.answersOutstanding_iff (e : HostEvent) : e.answersOutstanding = true ↔ AnswersTheRead e := by
  unfold HostEvent.answersOutstanding AnswersTheRead
  split <;> simp_all

theorem State.expectsAnswer_iff : s.expectsAnswer = true ↔ AnswerExpected s := by
  have none : (∀ e ∈ s.heldEvents, ¬AnswersTheRead e) ↔ s.heldEvents.any HostEvent.answersOutstanding = false := by
    simp only [← HostEvent.answersOutstanding_iff, List.any_eq_false]
  unfold State.expectsAnswer AnswerExpected
  rw [none]
  cases s.fetch <;> simp [Fetch.outstanding]

theorem State.arrives_iff (e : HostEvent) : s.arrives e = true ↔ ¬AnswersTheRead e ∨ AnswerExpected s := by
  rw [State.arrives, Bool.or_eq_true, Bool.not_eq_true', ← Bool.not_eq_true, HostEvent.answersOutstanding_iff,
    State.expectsAnswer_iff]

/-- A command that is an event of the host link is that event's arrival. -/
theorem exec_of_eventOf {c : Instr} {e : HostEvent} (event : eventOf c = some e) :
    exec c s = .next (s.hostEvent e) := by
  cases c <;> cases event <;> rfl

/-! An answer of a discarded read -/

theorem HostEvent.ofDiscarded_answers (e : HostEvent) : ¬AnswersTheRead e.ofDiscarded := by
  cases e <;> simp [AnswersTheRead, HostEvent.ofDiscarded]

/-- As many events as there were are held, and none answers the outstanding read. -/
def Unanswered (n : Nat) : Bool → RefClock → List HostEvent → Prop :=
  fun _ _ l => l.length = n ∧ ∀ x ∈ l, ¬AnswersTheRead x

theorem unanswered_map (r : Bool) (c : RefClock) (l : List HostEvent) :
    Unanswered l.length r c (l.map HostEvent.ofDiscarded) := by
  refine ⟨List.length_map .., fun x mem => ?_⟩
  obtain ⟨y, -, rfl⟩ := List.mem_map.mp mem
  exact y.ofDiscarded_answers

theorem unanswered_discardRead (reads : s.fetch.outstanding.isSome = true) :
    Law.host (Unanswered s.heldEvents.length) .rest s.discardRead := by
  obtain ⟨r, hr⟩ := Fetch.isSome_outstanding.mp reads
  simp only [State.discardRead, hr]
  exact unanswered_map _ _ _

/-- A quiesce and a soft reset leave as many events held, and their answers a discarded read's (R120). -/
theorem unanswered_writeCtrl (reads : s.fetch.outstanding.isSome = true) (running : s.device = .running)
    {enable softReset : Bool} (ends : softReset = true ∨ enable = false) :
    Law.host (Unanswered s.heldEvents.length) .rest (s.writeCtrl enable softReset) := by
  have discarded := unanswered_discardRead reads
  cases softReset with
  | true => exact discarded
  | false =>
    obtain rfl : enable = false := ends.resolve_left Bool.false_ne_true
    have claim : HostClaim (Unanswered s.heldEvents.length) := fun r c l h => h.1 ▸ unanswered_map r c l
    simp only [State.writeCtrl, running, Bool.false_eq_true, if_false]
    exact (Kept.host claim).quiesceFrom (s.discardRead_device.trans running) s.discardRead_outstanding discarded

/-- Settles O38: the clock's stop and resumption, and the events that are held between. -/
theorem hostEventsWaitForTheClock : Obligations.HostEventsWaitForTheClock := by
  intro s
  refine ⟨rfl, fun stopped => congrArg Host.Outcome.next (if_pos stopped),
    fun ticks => congrArg Host.Outcome.next (if_neg ticks), fun awake c e event => ?_, fun awake e rest held => ?_⟩
  · rw [exec_of_eventOf event]
    refine ⟨fun runs none => congrArg _ (s.hostEvent_taken e awake runs none), fun waits => ?_⟩
    have holds : s.holdsHost = true := State.holdsHost_iff.mpr waits
    refine ⟨fun arrives => ?_, fun answers unexpected => ?_⟩
    · simp [State.hostEvent, awake, holds, (State.arrives_iff e).mpr arrives]
    · have arrives : ¬s.arrives e = true := fun arrives =>
        ((State.arrives_iff e).mp arrives).elim (· answers) unexpected
      simp [State.hostEvent, awake, holds, arrives]
  · have due (x : HostEvent) : Due.host x ∈ s.dueEvents ↔ s.refclk = .running ∧ x = e := by
      rw [State.host_mem_dueEvents, State.mem_hostDue, held]
      constructor
      · rintro ⟨-, y, l, runs, same, e⟩
        exact ⟨runs, (Due.host.inj e).trans (List.cons.inj same).1.symm⟩
      · rintro ⟨runs, rfl⟩
        exact ⟨awake, x, rest, runs, rfl, rfl⟩
    refine ⟨fun stands x mem => stands ((due x).mp mem).1, fun runs =>
      ⟨(due e).mpr ⟨runs, rfl⟩, fun x mem => ((due x).mp mem).2, fun empty only => ?_⟩⟩
    have chosen : chooseDue s.choices s.dueEvents = some (.host e) := by rw [only]; rfl
    have taken := (step_of_due empty chosen).trans (takeDue_host held)
    refine ⟨taken, fun reads running ends => ⟨_, taken, ?_⟩⟩
    obtain ⟨enable, reset, either, rfl⟩ : ∃ enable reset, (reset = true ∨ enable = false) ∧ e = .ctrl enable reset := by
      obtain rfl | ⟨b, rfl⟩ := ends
      · exact ⟨false, false, .inr rfl, rfl⟩
      · exact ⟨b, true, .inl rfl, rfl⟩
    exact unanswered_writeCtrl (s := { s with heldEvents := rest, choices := s.choices + 1 }) reads running either

end Sys2Proof.Machine
end

section
/-! PROOFS. Every step is made of moves (chapters 1, 9 and 10): a law that every move carries is kept by every
step. -/

namespace Sys2Proof.Machine

set_option Elab.async false

variable {P : Law} {s : State}

/-- A carrier's change of output leaves its line at its level (R29). -/
theorem Line.touched_toggle (l : Line) : l.Touched l.toggle where
  owner := rfl
  successor := rfl
  modulated same := by
    change (l.modulator.map _).isSome = _
    rwa [Option.isSome_map]

/-! Events of the host -/

section
variable (K : Kept P)
include K

theorem Kept.writeWindow (offset : BitVec 8) (w : RegisterWrite) (awake : s.resetHeld = false) (h : P .rest s) :
    P .rest (s.writeWindow offset w) := by
  cases w with
  | narrow => exact h
  | word v => exact K.writeWord _ v awake h
  | pair v => exact K.writeWord _ _ (State.writeWord_awake _ _ awake) (K.writeWord _ _ awake h)

theorem Kept.writeReady (awake : s.resetHeld = false) (h : P .rest s) : P .rest s.writeReady := by
  unfold State.writeReady
  split
  · exact K.chooseWrite awake h
  · exact h

theorem Kept.takeHost (e : HostEvent) (awake : s.resetHeld = false) (h : P .rest s) : P .rest (s.takeHost e) := by
  cases e with
  | ctrl enable reset => exact K.writeCtrl enable reset h
  | sqTail v => exact K.writeSqTail v h
  | crHead i v => exact K.writeCrHead i v awake h
  | window offset w => exact K.writeWindow offset w awake h
  | readReturn of c => exact K.readReturned of c awake h
  | readError of => exact K.readFailed of h
  | writeReady => exact K.writeReady awake h

theorem Kept.issueRead (h : P .rest s) : P .rest s.issueRead := Moves.issueRead K.toMoves h

theorem Kept.filterEdge (i : Fin 8) (c : Candidate) (h : P .rest s) :
    P .rest ((s.setInput i (s.settled i)).confirm i c) :=
  K.confirm rfl i c (K.setInput i _ h)

/-- A message on the link leaves all that the laws speak of. -/
theorem Kept.releaseMessage (v : Fin 4) (h : P .rest s) : P .rest (s.releaseMessage v) := by
  unfold State.releaseMessage
  split
  · dsimp only
    split
    · exact K.quietly h rfl
    · exact K.quietly h rfl
  · exact h

theorem Kept.enableMastering (msi : Option MsiSetup) (h : P .rest s) : P .rest (s.enableMastering msi) := by
  have sent (t : State) (set : P .rest t) : P .rest ((List.finRange 4).foldl State.releaseMessage t) :=
    foldl_keeps (fun _ v h => K.releaseMessage v h) _ set
  have issued (t : State) (h : P .rest t) : P .rest (if t.refclk = .running then t.issueRead else t) := by
    split
    · exact K.issueRead h
    · exact h
  cases msi with
  | none => exact issued _ (sent _ (K.quietly h rfl))
  | some m => exact issued _ (sent _ (K.quietly h rfl))

theorem Kept.startDelivered (i : Fin 32) (h : P (.owing (.train i)) s) :
    P .rest (match s.train i with
      | none => s
      | some t => s.begin i t) := by
  split
  · rename_i free
    refine (K.unpop fun k u popped live => ?_).run h
    rw [← Owner.train.inj (Option.some.inj popped), free] at live
    cases live
  · rename_i u live
    exact K.enterSegment (u := u) (t := { u with state := .running }) rfl live ⟨rfl, rfl, rfl, rfl, rfl⟩
      (.inr TrainState.noConfusion) (.inl rfl) h

theorem Kept.openCapture (i : Fin 16) (h : P (.owing (.capture i)) s) : P .rest (s.openCapture i) := by
  unfold State.openCapture
  split
  · exact (K.unpop (m := .owing (.capture i)) fun _ _ other => nomatch other).run h
  · rename_i c live
    let d : Capture := { c with state := .opened, effectiveOpen := s.deviceTime }
    have opened := (K.recapture (d := d) live rfl rfl).run h
    have there : (s.setCapture i (some d)).capture i = some d := State.capture_setCapture_self ..
    unfold State.insertClose
    split
    · exact (K.unpop (m := .owing (.capture i)) fun _ _ other => nomatch other).run opened
    · exact (K.insertEntry (o := .capture i) rfl (congrArg Option.isSome there :) rfl
        fun _ _ other => nomatch other).run opened

theorem Kept.timeoutDelivered (h : P (.owing .fence) s) :
    P .rest (match s.fetch with
      | .fenced f => (s.endFence f .timeout).issueRead
      | _ => s) := by
  split
  · exact K.issueRead ((K.endFence 0 _ .timeout ‹_›).run h)
  · exact (K.unpop (m := .owing .fence) fun _ _ other => nomatch other).run h

theorem Kept.edgeConfirmed (i : Fin 8) (h : P .rest s) :
    P .rest (match s.confirmDue i with
      | none => s
      | some c => (s.setInput i (s.settled i)).confirm i c) := by
  split
  · exact h
  · exact K.filterEdge i _ h

theorem Kept.limitExpiry (h : P .rest s) : P .rest (if s.limitReached then s.endLimit else s) := by
  split
  · rename_i reached
    exact (K.toOff _ _ _ (State.limitReached_iff.mp reached).1).run h
  · exact h

theorem Kept.readTimeout (h : P .rest s) : P .rest (if s.readOverdue then s.halt .sqReadError else s) := by
  split
  · rename_i overdue
    exact K.halt _ (by simp [(State.readOverdue_iff.mp overdue).1]) h
  · exact h

end

/-! Deliveries -/

/-- A delivery that is not due changes nothing; one that is takes the entry off the calendar (R15). -/
theorem deliver_keeps (O : OuterMoves .always P) {o : Owner} {a : Action} {act : State → State}
    (acts : ∀ r, P (.owing o) r → P .rest (act r)) (h : P .rest s) : P .rest (s.deliver o a act) := by
  unfold State.deliver
  split
  · rename_i due
    exact acts _ ((O.pop due).run h)
  · exact h

/-! Steps -/

section
variable (K : Kept P) (O : OuterMoves .always P)
include K O

theorem Kept.hostEvent (e : HostEvent) (h : P .rest s) : P .rest (s.hostEvent e) := by
  obtain ⟨-, same⟩ | ⟨-, -, -, same⟩ | ⟨-, -, -, same⟩ | ⟨awake, -, same⟩ := s.hostEvent_cases e
  · rwa [same]
  · rw [same]
    exact (O.rehost s.refclk (s.heldEvents ++ [e])).run h
  · rwa [same]
  · rw [same]
    exact K.takeHost e awake h

theorem Kept.hardReset (h : P .rest s) : P .rest s.hardReset := by
  have reset := (K.clear (cleared_resetBlocks s)).run h
  have dropped := (O.rehost s.resetBlocks.refclk []).run reset
  have linked : P .rest s.resetBlocks.resetLink := K.quietly dropped rfl
  exact (O.holdReset rfl).run linked

theorem Kept.tick (none : s.dueEvents = []) (h : P .rest s) : P .rest s.tick := by
  by_cases awake : s.resetHeld = false
  · by_cases stopped : s.refclk = .stopped
    · simpa only [State.tick, stopped] using h
    · rw [State.tick_of_clock awake stopped]
      exact K.issueRead ((O.count awake none).run h)
  · rw [Bool.not_eq_false] at awake
    cases clock : s.refclk with
    | stopped => simpa only [State.tick, clock] using h
    | running => simpa only [State.tick, clock, awake, if_true] using h
    | resuming =>
      have runs : s.tick = { s with refclk := .running } := by simp only [State.tick, clock, awake, if_true]
      rw [runs]
      exact (O.rehost .running s.heldEvents).run h

/-- What a command makes of the state; none faults or is refused. -/
theorem Kept.exec {t : State} (c : Instr) (h : P .rest s) (result : exec c s = .next t) : P .rest t := by
  cases c with
  | nop _ | defineRing _ _ | setOutput _ _ | setInput _ _ | startTrain _ _ | armCapture _ _ | cancel _ | fence _ _
  | readTime _ | adjustTime _ _ | enable | quiesce | softReset _ | sqtailWrite _ | crheadWrite _ _
  | configurationRegisterWrite _ _ | submissionReadReturn _ _ | submissionReadError _ _ | postedWriteChoice =>
    cases result
    exact K.hostEvent O _ h
  | timeLoRead a =>
    cases result
    split
    · exact h
    · exact K.quietly h rfl
  | powerOnReset => exact Host.Outcome.next.inj result ▸ K.hardReset O h
  | hostLinkReset => exact Host.Outcome.next.inj result ▸ K.hardReset O h
  | refclkStop => exact Host.Outcome.next.inj result ▸ (O.rehost .stopped s.heldEvents).run h
  | refclkResume =>
    cases result
    split
    · exact (O.rehost .resuming s.heldEvents).run h
    · exact h
  | busMasteringEnable msi =>
    cases result
    split
    · exact h
    · exact K.enableMastering msi h
  | vectorUnmask v =>
    cases result
    split
    · exact h
    · exact K.releaseMessage v (K.quietly h rfl)
  | submissionReadTimeout => exact Host.Outcome.next.inj result ▸ K.readTimeout h
  | inputLevelChange l v => exact Host.Outcome.next.inj result ▸ K.pinChange rfl l v h
  | edgeConfirmed l => exact Host.Outcome.next.inj result ▸ K.edgeConfirmed l h
  | startDelivered i => exact Host.Outcome.next.inj result ▸ deliver_keeps O (fun _ h => K.startDelivered i h) h
  | boundaryDelivered i => exact Host.Outcome.next.inj result ▸ deliver_keeps O (fun _ h => K.boundary i h) h
  | openDelivered i => exact Host.Outcome.next.inj result ▸ deliver_keeps O (fun _ h => K.openCapture i h) h
  | closeDelivered i =>
    exact Host.Outcome.next.inj result ▸ deliver_keeps O (fun _ h => K.endCapture i .deadline (.inr rfl) h) h
  | timeoutDelivered => exact Host.Outcome.next.inj result ▸ deliver_keeps O (fun _ h => K.timeoutDelivered h) h
  | holdoffExpiry i =>
    cases result
    split
    · exact (K.easeRing (r := { s.ring i with timer := .expired })
        (Ring.Eased.of_tables rfl rfl rfl rfl rfl rfl)).run h
    · exact h
  | quiesceLimitExpiry => exact Host.Outcome.next.inj result ▸ K.limitExpiry h
  | carrierToggle l =>
    cases result
    split
    · exact (K.touchLine (Line.touched_toggle _)).run h
    · exact h
  | busMasteringDisable =>
    cases result
    split
    · exact h
    · exact K.quietly h rfl
  | vectorMask v =>
    cases result
    split
    · exact h
    · exact K.quietly h rfl
  | resetRelease =>
    cases result
    split
    · rename_i held
      exact (O.releaseReset held).run h
    · exact h

/-- Every step keeps a law that every move carries. -/
theorem Kept.step {t : State} (h : P .rest s) (result : step s = .next t) : P .rest t := by
  cases pending : s.pending with
  | cons c rest =>
    rw [stepTakesTheFrontCommand s c rest pending] at result
    exact K.exec O (s := { s with pending := rest }) c (K.quietly h rfl) result
  | nil =>
    by_cases none : s.dueEvents = []
    · rw [step_of_none_due pending none] at result
      exact Host.Outcome.next.inj result ▸ K.tick O none h
    · obtain ⟨d, mem, chosen⟩ := chooseDue_mem s.choices none
      rw [step_of_due pending chosen] at result
      have chose : P .rest { s with choices := s.choices + 1 } := K.quietly h rfl
      cases d with
      | own c => exact K.exec O c chose result
      | host e =>
        have awake := ((State.host_mem_dueEvents e).mp mem).1
        exact Host.Outcome.next.inj result ▸ K.takeHost e awake ((O.rehost s.refclk s.heldEvents.tail).run chose)

end

end Sys2Proof.Machine
end

section
/-! PROOFS. The output lines (chapter 2): every move keeps each line's modulator at its level, and its owner and
successor the live trains on it. -/

namespace Sys2Proof.Machine

set_option Elab.async false

variable {s : State}

/-- The line that the train in a slot is on (section 2.5). -/
def State.lineOf (s : State) (i : Fin 32) : Option (Fin 16) := (s.train i).map (·.line)

/-- Line `l`, where the trains are on the lines that `on` says: its owner and successor are the trains on it. -/
structure Line.Held (x : Line) (l : Fin 16) (on : Fin 32 → Option (Fin 16)) : Prop where
  modulated : x.Modulated
  owner     : ∀ i, x.owner = some i → on i = some l
  successor : ∀ i, x.successor = some i → on i = some l
  behind    : x.successor ≠ none → x.owner ≠ none ∧ x.owner ≠ x.successor
  every     : ∀ i, on i = some l → x.owner = some i ∨ x.successor = some i

theorem State.lineOf_eq_some {i : Fin 32} {l : Fin 16} :
    s.lineOf i = some l ↔ ∃ t ∈ s.train i, t.line = l := by
  simp [State.lineOf]

theorem State.linesSound_iff : s.LinesSound ↔ ∀ l, (s.line l).Held l s.lineOf := by
  constructor
  · rintro ⟨modulated, owner, successor, behind, every⟩ l
    refine ⟨modulated l, fun i o => State.lineOf_eq_some.mpr (owner l i o),
      fun i o => State.lineOf_eq_some.mpr (successor l i o), behind l, fun i on => ?_⟩
    obtain ⟨t, live, rfl⟩ := State.lineOf_eq_some.mp on
    exact every i t live
  · intro held
    exact ⟨fun l => (held l).modulated, fun l i o => State.lineOf_eq_some.mp ((held l).owner i o),
      fun l i o => State.lineOf_eq_some.mp ((held l).successor i o), fun l => (held l).behind,
      fun i t live => (held t.line).every i (State.lineOf_eq_some.mpr ⟨t, live, rfl⟩)⟩

/-- The line may be touched, while the trains on it are the same. -/
theorem Line.Held.touch {x y : Line} {l : Fin 16} {on on' : Fin 32 → Option (Fin 16)} (held : x.Held l on)
    (touched : x.Touched y) (same : ∀ i, on' i = some l ↔ on i = some l) : y.Held l on' where
  modulated := touched.modulated held.modulated
  owner i o := (same i).mpr (held.owner i (touched.owner ▸ o))
  successor i o := (same i).mpr (held.successor i (touched.successor ▸ o))
  behind := by
    rw [touched.owner, touched.successor]
    exact held.behind
  every i o := by
    rw [touched.owner, touched.successor]
    exact held.every i ((same i).mp o)

theorem Line.Touched.refl (x : Line) : x.Touched x := ⟨rfl, rfl, id⟩

/-- Lines that are touched, with the same trains on them. -/
theorem State.linesSound_of_touched {t : State} (sound : s.LinesSound) (lines : ∀ l, (s.line l).Touched (t.line l))
    (trains : ∀ i, t.lineOf i = s.lineOf i) : t.LinesSound := by
  rw [State.linesSound_iff] at sound ⊢
  exact fun l => (sound l).touch (lines l) fun i => by rw [trains]

/-- The end of a train on the line (R36 to R38). -/
theorem Line.Held.ended {x : Line} {l : Fin 16} {on : Fin 32 → Option (Fin 16)} (held : x.Held l on) {i : Fin 32}
    (on_i : on i = some l) (st : Status) (p : EndPolicy) :
    (x.trainEnded i st p).Held l (fun j => if i = j then none else on j) := by
  have others {j : Fin 32} (apart : i ≠ j) : (if i = j then none else on j) = on j := if_neg apart
  unfold Line.trainEnded
  by_cases owns : x.owner = some i
  · rw [if_pos owns]
    refine ⟨(Line.touched_take x _).modulated held.modulated, fun j o => ?_, nofun, nofun, fun j o => ?_⟩
    · have follows : x.successor = some j := o
      have apart : i ≠ j := by
        rintro rfl
        exact (held.behind (follows ▸ nofun)).2 (owns.trans follows.symm)
      exact (others apart).trans (held.successor j follows)
    · have apart : i ≠ j := by
        rintro rfl
        simp at o
      rw [if_neg apart] at o
      refine .inl ((held.every j o).resolve_left fun owns' => apart ?_)
      exact Option.some.inj (owns.symm.trans owns')
  · have follows : x.successor = some i := (held.every i on_i).resolve_left owns
    rw [if_neg owns, if_pos follows]
    refine ⟨held.modulated, fun j o => ?_, nofun, nofun, fun j o => ?_⟩
    · have apart : i ≠ j := by
        rintro rfl
        exact owns o
      exact (others apart).trans (held.owner j o)
    · have apart : i ≠ j := by
        rintro rfl
        simp at o
      rw [if_neg apart] at o
      refine .inl ((held.every j o).resolve_right fun follows' => apart ?_)
      exact Option.some.inj (follows.symm.trans follows')

/-- The claim of a train that comes onto the line (R34). -/
theorem Line.Held.claimed {x : Line} {l : Fin 16} {on : Fin 32 → Option (Fin 16)} (held : x.Held l on) {i : Fin 32}
    (off_i : on i = none) (free : x.owner = none ∨ x.successor = none) :
    (x.claim i).Held l (fun j => if i = j then some l else on j) := by
  have there {j : Fin 32} (on_j : on j = some l) : (if i = j then some l else on j) = some l := by
    rw [on_j, ite_self]
  have before {j : Fin 32} (o : (if i = j then some l else on j) = some l) : i = j ∨ on j = some l := by
    by_cases same : i = j
    · exact .inl same
    · exact .inr (by rwa [if_neg same] at o)
  unfold Line.claim
  by_cases ownerless : x.owner = none
  · have alone : x.successor = none := by
      by_contra some
      exact (held.behind some).1 ownerless
    rw [if_pos ownerless]
    refine ⟨held.modulated, fun j o => ?_, fun j o => ?_, fun some => absurd alone some, fun j o => ?_⟩
    · rw [if_pos (Option.some.inj o)]
    · exact absurd (alone.symm.trans o) nofun
    · obtain rfl | on_j := before o
      · exact .inl rfl
      · obtain owns | follows := held.every j on_j
        · exact absurd (ownerless.symm.trans owns) nofun
        · exact absurd (alone.symm.trans follows) nofun
  · have alone := free.resolve_left ownerless
    rw [if_neg ownerless]
    refine ⟨held.modulated, fun j o => there (held.owner j o), fun j o => ?_, fun _ => ⟨ownerless, fun same => ?_⟩,
      fun j o => ?_⟩
    · rw [if_pos (Option.some.inj o)]
    · exact absurd (off_i.symm.trans (held.owner i same)) nofun
    · obtain rfl | on_j := before o
      · exact .inr rfl
      · obtain owns | follows := held.every j on_j
        · exact .inl owns
        · exact absurd (alone.symm.trans follows) nofun

theorem State.lineOf_setTrain (i j : Fin 32) (x : Option Train) :
    (s.setTrain i x).lineOf j = if i = j then x.map (·.line) else s.lineOf j := by
  rw [State.lineOf, State.train_setTrain]
  split <;> rfl

/-- The end of a train leaves the lines sound. -/
theorem State.linesSound_endedTrain (sound : s.LinesSound) {i : Fin 32} {t : Train} (live : s.train i = some t)
    (st : Status) (r : Completion) : (endedTrain s i t st r).LinesSound := by
  rw [State.linesSound_iff] at sound ⊢
  have on (j : Fin 32) : (endedTrain s i t st r).lineOf j = if i = j then none else s.lineOf j := by
    rw [State.lineOf, endedTrain_train]
    split <;> rfl
  have on_i : s.lineOf i = some t.line := State.lineOf_eq_some.mpr ⟨t, live, rfl⟩
  intro l
  rw [endedTrain_line]
  split
  · rename_i same
    subst same
    rw [funext on]
    exact (sound t.line).ended on_i st t.endPolicy
  · rename_i other
    refine (sound l).touch (.refl _) fun j => ?_
    rw [on]
    split
    · rename_i self
      rw [← self, on_i]
      exact ⟨nofun, fun h => absurd (Option.some.inj h) other⟩
    · exact Iff.rfl

/-- The admission of a train leaves the lines sound. -/
theorem State.linesSound_enrollTrain (sound : s.LinesSound) {i : Fin 4} {k : Fin 32} {u : Train}
    (enrolls : s.EnrollsTrain i k u) : (s.enrollTrain k u).LinesSound := by
  rw [State.linesSound_iff] at sound ⊢
  have on (j : Fin 32) : (s.enrollTrain k u).lineOf j = if k = j then some u.line else s.lineOf j :=
    State.lineOf_setTrain (s := s) k j (some u)
  have off_k : s.lineOf k = none := by rw [State.lineOf, enrolls.free]; rfl
  intro l
  have line : (s.enrollTrain k u).line l = if u.line = l then (s.line u.line).claim k else s.line l :=
    State.line_setLine (s := ((s.setTrain k (some u)).join (.train k)).addTag u.tag (.train k)) u.line l _
  rw [line]
  split
  · rename_i same
    subst same
    rw [funext on]
    exact (sound u.line).claimed off_k enrolls.line
  · rename_i other
    refine (sound l).touch (.refl _) fun j => ?_
    rw [on]
    split
    · rename_i self
      rw [← self, off_k]
      exact ⟨fun h => absurd (Option.some.inj h) other, nofun⟩
    · exact Iff.rfl

/-- A train on another stretch of its way is on the same line. -/
theorem State.linesSound_setTrain (sound : s.LinesSound) {i : Fin 32} {u t : Train} (live : s.train i = some u)
    (same : u.Same t) : (s.setTrain i (some t)).LinesSound := by
  refine State.linesSound_of_touched sound (fun _ => .refl _) fun j => ?_
  rw [State.lineOf_setTrain]
  split
  · rename_i self
    rw [← self, State.lineOf, live]
    exact congrArg some same.line
  · rfl

theorem State.linesSound_setLine (sound : s.LinesSound) {l : Fin 16} {x : Line} (touched : (s.line l).Touched x) :
    (s.setLine l x).LinesSound := by
  refine State.linesSound_of_touched sound (fun k => ?_) fun _ => rfl
  rw [State.line_setLine]
  split
  · rename_i same
    exact same ▸ touched
  · exact .refl _

theorem Line.touched_advance (x : Line) : x.Touched x.advance where
  owner := rfl
  successor := rfl
  modulated same := by
    change (x.modulator.map _).isSome = _
    rwa [Option.isSome_map]

/-- The law of the output lines (sections 2.4 and 2.5). -/
def Law.lines : Law := fun _ s => s.LinesSound

theorem Moves.lines : Moves .always .lines where
  quiet q _ _ h := by rw [q]; exact h
  settle _ _ _ _ h := h
  unpop _ _ _ h := h
  closeTrain st r live _ _ h := State.linesSound_endedTrain h live st r
  closeCapture _ _ _ _ h := h
  endFence _ _ _ _ _ _ h := h
  lowerCount _ _ _ _ _ h := h
  reportNone _ _ _ _ h := h
  retrain live same _ _ _ h := State.linesSound_setTrain h live same
  wake _ live same _ _ _ _ h := State.linesSound_setTrain h live same
  insertEntry _ _ _ _ _ _ h := by rw [State.insert_eq]; exact h
  recapture _ _ _ _ _ h := h
  touchLine touched _ _ h := State.linesSound_setLine h touched
  easeRing _ _ _ h := h
  faultRing _ _ _ _ h := h
  stageFree _ _ _ _ _ h := h
  reserve _ _ _ _ h := h
  answer _ _ _ h := h
  undefineRing _ _ _ _ h := h
  redefineRing _ _ _ _ _ _ _ _ _ _ h := h
  enrollTrain enrolls _ _ h := State.linesSound_enrollTrain h enrolls
  enrollCapture _ _ _ h := h
  enrollFence _ _ _ _ _ _ h := h
  adjust _ _ _ _ _ _ h := h
  refetch _ _ _ _ _ h := h
  advanceHead _ _ _ _ h := h
  setTail _ _ _ h := h
  discardHeld _ _ h := h
  clear {s s'} c _ _ _ := by
    have none (i : Fin 32) : s'.lineOf i = none := by rw [State.lineOf, c.trains]; rfl
    refine State.linesSound_iff.mpr fun l => ?_
    obtain ⟨ownerless, alone, modulated⟩ := c.lines l
    refine ⟨modulated, fun i o => ?_, fun i o => ?_, fun some => absurd alone some, fun i on => ?_⟩
    · exact absurd (ownerless.symm.trans o) nofun
    · exact absurd (alone.symm.trans o) nofun
    · exact absurd ((none i).symm.trans on) nofun
  toOff _ _ _ _ _ _ h := h
  enterRunning _ _ _ _ h := h
  configure _ _ _ _ _ _ h := h
  beginSweep _ _ _ _ h := h

theorem OuterMoves.lines : OuterMoves .always .lines where
  rehost _ _ _ _ h := h
  pop _ _ _ h := h
  count {s} _ _ _ _ h := by
    refine State.linesSound_of_touched h (fun l => ?_) fun _ => rfl
    have line : s.count.line l = (s.line l).advance := Vector.getElem_ofFn ..
    rw [line]
    exact Line.touched_advance _
  holdReset _ _ _ h := h
  releaseReset _ _ _ h := h

theorem Kept.lines : Kept .lines := Kept.of_blind Moves.lines (fun _ h => h) fun _ _ h => h

/-- Settles O6: each move that a step is made of keeps the output lines sound. -/
theorem modulatorsRunExactlyAtCarrier : Obligations.ModulatorsRunExactlyAtCarrier :=
  fun _ _ sound result => Kept.lines.step OuterMoves.lines sound result

end Sys2Proof.Machine
end

section
/-! PROOFS. The rings and the submission reads (chapters 6 and 7): every move keeps sizes legal, indices below them,
and reads of the record at head. -/

namespace Sys2Proof.Machine

set_option Elab.async false

variable {s : State}

/-! Rings -/

/-- A ring's soundness is that of its state, size and indices (section 7.1). -/
theorem Ring.Sound.of_tables {x y : Ring} (sound : x.Sound) (state : y.state = x.state) (size : y.size = x.size)
    (index : y.writeIndex = x.writeIndex) (head : y.hostHead = x.hostHead) : y.Sound := by
  rwa [Ring.Sound, state, size, index, head]

theorem Ring.undefined_sound : Ring.undefined.Sound := .inl rfl

/-- A ring put in service with a legal size starts at index 0 (R145). -/
theorem Ring.define_sound (r : Ring) (base : HostAddr) {size : Nat} (level : Fin 4) (threshold holdoff : Nat)
    (legal : size ∈ crSizes) : (r.define base size level threshold holdoff).Sound :=
  .inr ⟨legal, crSizes_pos legal, crSizes_pos legal⟩

theorem Ring.shiftTimer_tables (r : Ring) (d : Time) :
    (r.shiftTimer d).state = r.state ∧ (r.shiftTimer d).size = r.size
      ∧ (r.shiftTimer d).writeIndex = r.writeIndex ∧ (r.shiftTimer d).hostHead = r.hostHead := by
  unfold Ring.shiftTimer
  split <;> exact ⟨rfl, rfl, rfl, rfl⟩

theorem Ring.shiftTimer_account (r : Ring) (d : Time) :
    (r.shiftTimer d).staged = r.staged ∧ (r.shiftTimer d).owed = r.owed := by
  unfold Ring.shiftTimer
  split <;> exact ⟨rfl, rfl⟩

/-- One ring changes, to a sound one, and stays in service if it is CR0. -/
theorem State.ringsSound_setRing (sound : s.RingsSound) {i : Fin 4} {r : Ring} (ring : r.Sound)
    (served : r.state = (s.ring i).state
      ∨ i ≠ 0 ∧ (s.device = .running ∨ s.device = .quiescing ∨ r.state = .undefined)) :
    (s.setRing i r).RingsSound := by
  obtain ⟨each, first, none⟩ := sound
  refine ⟨fun k => ?_, fun on => ?_, fun off k => ?_⟩
  · rw [State.ring_setRing]
    split
    · exact ring
    · exact each k
  · rw [State.ring_setRing]
    split
    · rename_i zero
      obtain same | ⟨other, -⟩ := served
      · rw [same, zero]
        exact first on
      · exact absurd zero other
    · exact first on
  · rw [State.ring_setRing]
    split
    · obtain same | ⟨-, running | quiescing | undefined⟩ := served
      · rw [same]
        exact none off i
      · change s.device = .off ∨ s.device = .halted at off
        rw [running] at off
        simp at off
      · change s.device = .off ∨ s.device = .halted at off
        rw [quiescing] at off
        simp at off
      · exact undefined
    · exact none off k

/-- Each ring has the tables it had. -/
theorem State.ringsSound_of_tables {t : State} (sound : s.RingsSound) (device : t.device = s.device)
    (tables : ∀ k, (t.ring k).state = (s.ring k).state ∧ (t.ring k).size = (s.ring k).size
      ∧ (t.ring k).writeIndex = (s.ring k).writeIndex ∧ (t.ring k).hostHead = (s.ring k).hostHead) :
    t.RingsSound := by
  obtain ⟨each, first, none⟩ := sound
  refine ⟨fun k => ?_, fun on => ?_, fun off k => ?_⟩
  · obtain ⟨state, size, index, head⟩ := tables k
    exact (each k).of_tables state size index head
  · rw [(tables 0).1]
    exact first (device ▸ on)
  · rw [(tables k).1]
    exact none (device ▸ off) k

/-- A record staged, or a place reserved, leaves a ring's tables as they were. -/
theorem State.ringsSound_account (sound : s.RingsSound) (i : Fin 4) (records : List Completion) (n : Nat) :
    (s.setRing i { s.ring i with staged := records, owed := n }).RingsSound :=
  State.ringsSound_setRing sound ((sound.1 i).of_tables rfl rfl rfl rfl) (.inl rfl)

theorem State.ringsSound_undefined (device : s.device = .off ∨ s.device = .halted)
    (rings : ∀ i, s.ring i = Ring.undefined) : s.RingsSound := by
  refine ⟨fun i => ?_, fun on => ?_, fun _ i => ?_⟩
  · rw [rings]
    exact Ring.undefined_sound
  · obtain off | halted := device
    · rw [off] at on
      simp at on
    · rw [halted] at on
      simp at on
  · rw [rings]
    rfl

theorem State.ring_enterRunning (s : State) (k : Fin 4) :
    s.enterRunning.ring k = if 0 = k then s.cr0FromRegisters else s.ring k := State.ring_setRing ..

/-- A valid configuration gives legal sizes (R186). -/
theorem State.sizes_of_configValid (valid : s.configValid = true) :
    s.sqSize.toNat ∈ sqSizes ∧ cfgSize s.cr0Cfg ∈ crSizes := by
  simp only [State.configValid, Bool.and_eq_true, decide_eq_true_eq] at valid
  obtain ⟨⟨⟨⟨⟨⟨⟨⟨sq, -⟩, cr⟩, -⟩, -⟩, -⟩, -⟩, -⟩, -⟩ := valid
  exact ⟨sq, cr⟩

/-- The enable puts CR0 in service (R187). -/
theorem State.ringsSound_enterRunning (sound : s.RingsSound) (valid : s.configValid = true) :
    s.enterRunning.RingsSound := by
  refine ⟨fun k => ?_, fun _ => ?_, fun idle => ?_⟩
  · rw [State.ring_enterRunning]
    split
    · exact Ring.define_sound _ _ _ _ _ (State.sizes_of_configValid valid).2
    · exact sound.1 k
  · rw [State.ring_enterRunning, if_pos rfl]
    rfl
  · exact absurd idle (by simp [State.enterRunning])

/-- The law of the rings (chapter 7). -/
def Law.rings : Law := fun _ s => s.RingsSound

theorem Moves.rings : Moves .always .rings where
  quiet q _ _ h := by rw [q]; exact h
  settle _ _ _ _ h := h
  unpop _ _ _ h := h
  closeTrain {_ s _ t} _ _ _ _ _ h := State.ringsSound_account (s := s) h t.ring _ _
  closeCapture {_ s _ c} _ _ _ _ h := State.ringsSound_account (s := s) h c.ring _ _
  endFence {_ s f} _ _ _ _ _ _ h := State.ringsSound_account (s := s) h f.ring _ _
  lowerCount _ _ _ _ _ h := h
  reportNone _ _ _ _ h := h
  retrain _ _ _ _ _ h := h
  wake _ _ _ _ _ _ _ h := h
  insertEntry _ _ _ _ _ _ h := by rw [State.insert_eq]; exact h
  recapture _ _ _ _ _ h := h
  touchLine _ _ _ h := h
  easeRing {_ _ i _} eased _ _ h := State.ringsSound_setRing h (eased.sound (h.1 i)) (.inl eased.state)
  faultRing {_ s i} other active _ _ h := by
    have on : s.device = .running ∨ s.device = .quiescing := by
      by_contra off
      have none := h.2.2 (by cases d : s.device <;> simp_all) i
      rw [active] at none
      cases none
    have sizes := (h.1 i).resolve_left (by rw [active]; nofun)
    exact State.ringsSound_setRing h (.inr sizes) (.inr ⟨other, on.imp_right .inl⟩)
  stageFree {_ _ _ c} _ _ _ _ _ h := State.ringsSound_account h c.ring _ _
  reserve {_ i} _ _ _ _ h := State.ringsSound_account h i _ _
  answer {_ i} _ _ _ h := State.ringsSound_account h i _ _
  undefineRing other _ _ _ h := State.ringsSound_setRing h Ring.undefined_sound (.inr ⟨other, .inr (.inr rfl)⟩)
  redefineRing _ _ _ _ _ other running legal _ _ h :=
    State.ringsSound_setRing h (Ring.define_sound _ _ _ _ _ legal) (.inr ⟨other, .inl running⟩)
  enrollTrain _ _ _ h := h
  enrollCapture _ _ _ h := h
  enrollFence _ _ _ _ _ _ h := h
  adjust {_ s} v _ _ _ _ _ h := by
    refine State.ringsSound_of_tables h rfl fun k => ?_
    rw [State.ring_adjust]
    exact (s.ring k).shiftTimer_tables _
  refetch _ _ _ _ _ h := h
  advanceHead _ _ _ _ h := h
  setTail _ _ _ h := h
  discardHeld _ _ h := h
  clear c _ _ _ := State.ringsSound_undefined c.device c.rings
  toOff _ _ _ _ _ _ _ := State.ringsSound_undefined (.inl rfl) fun _ => Vector.getElem_replicate ..
  enterRunning _ valid _ _ h := State.ringsSound_enterRunning h valid
  configure _ _ _ _ _ _ h := h
  beginSweep {s} running _ _ _ h := ⟨h.1, fun _ => h.2.1 (.inl running), fun off => by simp at off⟩

theorem OuterMoves.rings : OuterMoves .always .rings where
  rehost _ _ _ _ h := h
  pop _ _ _ h := h
  count _ _ _ _ h := h
  holdReset _ _ _ h := h
  releaseReset _ _ _ h := h

theorem Kept.rings : Kept .rings := Kept.of_blind Moves.rings (fun _ h => h) fun _ _ h => h

/-! The submission unit -/

theorem sqSizes_pos {n : Nat} (h : n ∈ sqSizes) : 0 < n := by
  revert n
  decide

/-- The law of the submission ring and its reads (chapter 6). -/
def Law.unit : Law := fun _ s => s.UnitSound

theorem Moves.unit : Moves .always .unit where
  quiet q _ _ h := by rw [q]; exact h
  settle _ _ _ _ h := h
  unpop _ _ _ h := h
  closeTrain _ _ _ _ _ h := h
  closeCapture _ _ _ _ h := h
  endFence _ _ _ _ _ _ h := ⟨h.1, nofun⟩
  lowerCount _ _ _ _ _ h := ⟨h.1, nofun⟩
  reportNone _ _ _ _ h := h
  retrain _ _ _ _ _ h := h
  wake _ _ _ _ _ _ _ h := h
  insertEntry _ _ _ _ _ _ h := by rw [State.insert_eq]; exact h
  recapture _ _ _ _ _ h := h
  touchLine _ _ _ h := h
  easeRing _ _ _ h := h
  faultRing _ _ _ _ h := h
  stageFree _ _ _ _ _ h := h
  reserve _ _ _ _ h := h
  answer _ _ _ h := h
  undefineRing _ _ _ _ h := h
  redefineRing _ _ _ _ _ _ _ _ _ _ h := h
  enrollTrain _ _ _ h := h
  enrollCapture _ _ _ h := h
  enrollFence _ _ _ _ _ _ h := ⟨h.1, nofun⟩
  adjust _ _ _ _ _ _ h := h
  refetch _ _ reads _ _ h := ⟨h.1, reads⟩
  advanceHead {_ s} running _ _ _ h := by
    refine ⟨fun on => ?_, nofun⟩
    obtain ⟨legal, -, tail⟩ := h.1 on
    exact ⟨legal, Nat.mod_lt _ (sqSizes_pos legal), tail⟩
  setTail inside _ _ h := by
    refine ⟨fun on => ?_, h.2⟩
    obtain ⟨legal, head, -⟩ := h.1 on
    exact ⟨legal, head, inside⟩
  discardHeld _ _ h := h
  clear {s s'} c _ _ h := by
    refine ⟨fun on => ?_, fun r reads => ?_⟩
    · obtain ⟨on', size, head, tail⟩ := c.unit (c.device.resolve_left on)
      rw [size, head, tail]
      exact h.1 on'
    · rw [c.fetch] at reads
      cases reads
  toOff _ _ _ _ _ _ _ := ⟨fun on => absurd rfl on, nofun⟩
  enterRunning {s} off valid _ _ h := by
    have legal := (State.sizes_of_configValid valid).1
    refine ⟨fun _ => ⟨legal, sqSizes_pos legal, sqSizes_pos legal⟩, fun r reads => ?_⟩
    have running := (h.2 r reads).1
    rw [off] at running
    cases running
  configure {s} _ _ _ off _ _ h := by
    refine ⟨fun on => absurd off on, fun r reads => ?_⟩
    have running := (h.2 r reads).1
    rw [off] at running
    cases running
  beginSweep {s} running none _ _ h := by
    refine ⟨fun _ => h.1 (by simp [running]), fun r reads => ?_⟩
    rw [none] at reads
    cases reads

theorem OuterMoves.unit : OuterMoves .always .unit where
  rehost _ _ _ _ h := h
  pop _ _ _ h := h
  count {s} _ _ _ _ h := by
    refine ⟨h.1, fun r reads => ?_⟩
    change s.fetch.advance.outstanding = some r at reads
    cases unit : s.fetch with
    | reading r' =>
      rw [unit] at reads
      cases reads
      exact h.2 r' (by rw [unit]; rfl)
    | idle => rw [unit] at reads; cases reads
    | stalled c t => rw [unit] at reads; cases reads
    | fenced f => rw [unit] at reads; cases reads
  holdReset _ _ _ h := h
  releaseReset _ _ _ h := h

theorem Kept.unit : Kept .unit := Kept.of_blind Moves.unit (fun _ h => h) fun _ _ h => h

/-- Settles O7: each move that a step is made of keeps the rings sound, and the submission ring and its reads. -/
theorem ringsAndReadsStaySound : Obligations.RingsAndReadsStaySound :=
  fun _ _ rings unit result =>
    ⟨Kept.rings.step OuterMoves.rings rings result, Kept.unit.step OuterMoves.unit unit result⟩

end Sys2Proof.Machine
end

section
/-! PROOFS. The account of works, its first part (section 1.6): every move keeps the admission list the list of the
live works, each once, and the entries those of live works; outside RUNNING there is none, once the sweep is over. -/

namespace Sys2Proof.Machine

set_option Elab.async false

variable {s : State}

/-! The works that are live -/

theorem State.noWork_iff : s.NoWork ↔ ∀ o, s.live o = false := by
  have fence : s.fetch.waiting = none ↔ s.live .fence = false := by
    rw [State.live, Option.isSome_eq_false_iff, Option.isNone_iff_eq_none]
  have train (i : Fin 32) : s.train i = none ↔ s.live (.train i) = false := by
    rw [State.live, Option.isSome_eq_false_iff, Option.isNone_iff_eq_none]
  have capture (i : Fin 16) : s.capture i = none ↔ s.live (.capture i) = false := by
    rw [State.live, Option.isSome_eq_false_iff, Option.isNone_iff_eq_none]
  simp only [State.NoWork, fence, train, capture]
  constructor
  · rintro ⟨t, c, f⟩ o
    cases o with
    | train i => exact t i
    | capture i => exact c i
    | fence => exact f
  · exact fun none => ⟨fun i => none _, fun i => none _, none _⟩

/-- The admission list is the list of the live works, and entries are those of live works; when no sweep is under
way, no work is live outside RUNNING. -/
def Law.works : Law := fun m s =>
  s.admission.Nodup ∧ (∀ o, s.live o = true ↔ o ∈ s.admission) ∧ (∀ e ∈ s.calendar, s.live e.owner = true)
    ∧ (m.sweeping = false → s.device ≠ .running → ∀ o, s.live o = false)

theorem Law.works_rest : Law.works .rest s ↔ s.WorksSound := by
  have split : (∀ o, s.live o = true ↔ o ∈ s.admission) ↔
      (∀ i, (s.train i).isSome = true ↔ Owner.train i ∈ s.admission)
        ∧ (∀ i, (s.capture i).isSome = true ↔ Owner.capture i ∈ s.admission)
        ∧ (s.fetch.waiting.isSome = true ↔ Owner.fence ∈ s.admission) := by
    constructor
    · exact fun each => ⟨fun i => each (.train i), fun i => each (.capture i), each .fence⟩
    · rintro ⟨t, c, f⟩ o
      cases o with
      | train i => exact t i
      | capture i => exact c i
      | fence => exact f
  simp only [Law.works, State.WorksSound, split, State.noWork_iff, and_assoc, Midway.rest, forall_const]

/-- The same works on the same list; entries are those there were, or others of live works. -/
theorem Law.works_of_same {m : Midway} {t : State} (h : Law.works m s) (live : ∀ o, t.live o = s.live o)
    (admission : t.admission = s.admission)
    (calendar : ∀ e ∈ t.calendar, e ∈ s.calendar ∨ s.live e.owner = true) (device : t.device = s.device) :
    Law.works m t := by
  obtain ⟨once, listed, entries, rests⟩ := h
  unfold Law.works
  simp only [live, admission, device]
  exact ⟨once, listed, fun e mem => (calendar e mem).elim (entries e) id, rests⟩

/-- A work leaves (R17). -/
theorem Law.works_of_left {m m' : Midway} {t : State} {o : Owner} (h : Law.works m s)
    (live : ∀ x, t.live x = (s.live x && !decide (x = o)))
    (admission : t.admission = s.admission.filter fun w => !decide (w = o))
    (calendar : t.calendar = s.calendar.filter fun e => !decide (e.owner = o)) (device : t.device = s.device)
    (sweeping : m'.sweeping = m.sweeping) : Law.works m' t := by
  obtain ⟨once, listed, entries, rests⟩ := h
  refine ⟨admission ▸ once.filter _, fun x => ?_, fun e mem => ?_, fun still off x => ?_⟩
  · rw [live, admission, Bool.and_eq_true, listed, List.mem_filter]
  · rw [calendar, List.mem_filter] at mem
    rw [live, Bool.and_eq_true]
    exact ⟨entries e mem.1, mem.2⟩
  · rw [live, rests (sweeping ▸ still) (device ▸ off) x]
    rfl

/-- A work joins, in RUNNING (R11). -/
theorem Law.works_of_joined {m m' : Midway} {t : State} {o : Owner} (h : Law.works m s) (free : s.live o = false)
    (live : ∀ x, t.live x = (s.live x || decide (x = o))) (admission : t.admission = s.admission ++ [o])
    (calendar : t.calendar = s.calendar) (running : t.device = .running) : Law.works m' t := by
  obtain ⟨once, listed, entries, -⟩ := h
  have new : o ∉ s.admission := fun mem => by
    rw [(listed o).mpr mem] at free
    cases free
  refine ⟨?_, fun x => ?_, fun e mem => ?_, fun _ off => absurd running off⟩
  · rw [admission]
    exact once.append (List.nodup_singleton o) (List.disjoint_singleton.mpr new)
  · rw [live, admission, Bool.or_eq_true, listed, List.mem_append, List.mem_singleton, decide_eq_true_eq]
  · rw [live, entries e (calendar ▸ mem)]
    rfl

/-! What the moves do to the works that are live -/

theorem endedTrain_live (s : State) (i : Fin 32) (t : Train) (st : Status) (r : Completion) (x : Owner) :
    (endedTrain s i t st r).live x = (s.live x && !decide (x = .train i)) := by
  cases x with
  | train j =>
    rw [State.live, endedTrain_train]
    by_cases same : i = j
    · simp [same]
    · simp [same, Ne.symm same, State.live]
  | capture j => simp [State.live, endedTrain]
  | fence => simp [State.live, endedTrain]

theorem closeCapture_live (s : State) (i : Fin 16) (c : Capture) (st : Status) (x : Owner) :
    ((s.closeCapture i c st).setCapture i none).live x = (s.live x && !decide (x = .capture i)) := by
  cases x with
  | capture j =>
    rw [State.live, State.capture_setCapture]
    by_cases same : i = j
    · simp [same]
    · simp [same, Ne.symm same, State.live]
      rfl
  | train j => simp [State.live]; rfl
  | fence => simp [State.live]; rfl

theorem endFence_live (s : State) (f : Fence) (st : Status) (x : Owner) :
    (s.endFence f st).live x = (s.live x && !decide (x = .fence)) := by
  cases x with
  | fence => simp [State.live, State.endFence, Fetch.waiting]
  | train j => simp [State.live]; rfl
  | capture j => simp [State.live]; rfl

theorem setTrain_live {i : Fin 32} {u : Train} (live : s.train i = some u) (t : Train) (x : Owner) :
    (s.setTrain i (some t)).live x = s.live x := by
  cases x with
  | train j =>
    rw [State.live, State.train_setTrain]
    split
    · rename_i same
      rw [← same, State.live, live]
      rfl
    · rfl
  | capture j => rfl
  | fence => rfl

theorem setCapture_live {i : Fin 16} {c : Capture} (live : s.capture i = some c) (d : Capture) (x : Owner) :
    (s.setCapture i (some d)).live x = s.live x := by
  cases x with
  | capture j =>
    rw [State.live, State.capture_setCapture]
    split
    · rename_i same
      rw [← same, State.live, live]
      rfl
    · rfl
  | train j => rfl
  | fence => rfl

theorem enrollTrain_live (s : State) (k : Fin 32) (u : Train) (x : Owner) :
    (s.enrollTrain k u).live x = (s.live x || decide (x = .train k)) := by
  cases x with
  | train j =>
    have slot : (s.enrollTrain k u).train j = if k = j then some u else s.train j := State.train_setTrain (s := s) ..
    rw [State.live, slot]
    by_cases same : k = j
    · simp [same]
    · simp [same, Ne.symm same, State.live]
  | capture j => simp [State.live]; rfl
  | fence => simp [State.live]; rfl

theorem enrollCapture_live (s : State) (k : Fin 16) (c : Capture) (x : Owner) :
    (s.enrollCapture k c).live x = (s.live x || decide (x = .capture k)) := by
  cases x with
  | capture j =>
    have slot : (s.enrollCapture k c).capture j = if k = j then some c else s.capture j :=
      State.capture_setCapture (s := s) ..
    rw [State.live, slot]
    by_cases same : k = j
    · simp [same]
    · simp [same, Ne.symm same, State.live]
  | train j => simp [State.live]; rfl
  | fence => simp [State.live]; rfl

theorem enrollFence_live (s : State) (i : Fin 4) (tag : Tag) (x : Owner) :
    (s.enrollFence i tag).live x = (s.live x || decide (x = .fence)) := by
  cases x with
  | fence => simp [State.live, State.enrollFence, Fetch.waiting]
  | train j => simp [State.live]; rfl
  | capture j => simp [State.live]; rfl

/-- The unit changes between states in which no fence waits, or it waits in both. -/
theorem fetch_live {f : Fetch} (same : f.waiting.isSome = s.fetch.waiting.isSome) (x : Owner) :
    ({ s with fetch := f } : State).live x = s.live x := by
  cases x with
  | fence => exact same
  | train j => rfl
  | capture j => rfl

/-- No work is live where every slot is FREE and the unit IDLE. -/
theorem State.live_eq_false (trains : ∀ i, s.train i = none) (captures : ∀ i, s.capture i = none)
    (free : s.fetch.waiting = none) : ∀ o, s.live o = false := State.noWork_iff.mp ⟨trains, captures, free⟩

theorem Law.works_of_empty {m : Midway} (none : ∀ o, s.live o = false) (admission : s.admission = [])
    (calendar : s.calendar = []) : Law.works m s := by
  refine ⟨admission ▸ List.nodup_nil, fun o => ?_, fun e mem => ?_, fun _ _ => none⟩
  · rw [none, admission]
    simp
  · rw [calendar] at mem
    cases mem

/-- Where the works are accounted for and none is live, the list and the calendar are empty. -/
theorem Law.works_empty {m : Midway} (h : Law.works m s) (none : ∀ o, s.live o = false) :
    s.admission = [] ∧ s.calendar = [] := by
  obtain ⟨-, listed, entries, -⟩ := h
  constructor
  · refine List.eq_nil_iff_forall_not_mem.mpr fun o mem => ?_
    have live := (listed o).mpr mem
    rw [none] at live
    cases live
  · refine List.eq_nil_iff_forall_not_mem.mpr fun e mem => ?_
    have live := entries e mem
    rw [none] at live
    cases live

/-- An entry of the calendar after an insertion is the new one or an old one (R13). -/
theorem State.mem_of_mem_calendar_insert {o : Owner} {a : Action} {due : Time} {e : Entry}
    (mem : e ∈ (s.insert o a due).calendar) : e = { due := due, owner := o, action := a } ∨ e ∈ s.calendar := by
  obtain ⟨-, inserted⟩ | ⟨-, inserted⟩ := s.insert_cases o a due
  · rw [inserted] at mem
    exact (mem_placeEntry ..).mp mem
  · rw [inserted] at mem
    exact .inr mem

theorem Moves.works : Moves .always .works where
  quiet q _ _ h := by rw [q]; exact h
  settle _ _ _ _ h := h
  unpop _ _ _ h := h
  closeTrain {m s i t} st r live _ _ h :=
    Law.works_of_left h (endedTrain_live s i t st r) rfl rfl rfl (by simp only [Midway.closed, Midway.forget])
  closeCapture {m s i c} st live _ _ h :=
    Law.works_of_left h (closeCapture_live s i c st) rfl rfl rfl (by simp only [Midway.closed, Midway.forget])
  endFence {m s f} n k st _ _ _ h :=
    Law.works_of_left h (endFence_live s { f with count := k } st) rfl rfl rfl (by simp only [Midway.forget])
  lowerCount {m s f} waits _ _ _ _ h :=
    Law.works_of_same (m := m) h (fetch_live (by rw [waits]; rfl)) rfl (fun _ => .inl) rfl
  reportNone _ _ _ _ h := h
  retrain live _ _ _ _ h := Law.works_of_same h (setTrain_live live _) rfl (fun _ => .inl) rfl
  wake {m s i u t} _ live _ _ _ _ _ h :=
    Law.works_of_same (m := m) h (setTrain_live live _) rfl (fun _ => .inl) rfl
  insertEntry {m s o a due} _ live _ _ _ _ h := by
    refine Law.works_of_same (m := m) h (fun x => ?_) ?_ (fun e mem => ?_) ?_
    · rw [State.insert_eq]
      rfl
    · rw [State.insert_eq]
    · obtain rfl | old := State.mem_of_mem_calendar_insert mem
      · exact .inr live
      · exact .inl old
    · rw [State.insert_eq]
  recapture live _ _ _ _ h := Law.works_of_same h (setCapture_live live _) rfl (fun _ => .inl) rfl
  touchLine _ _ _ h := h
  easeRing _ _ _ h := h
  faultRing _ _ _ _ h := h
  stageFree _ _ _ _ _ h := h
  reserve _ _ _ _ h := h
  answer _ _ _ h := h
  undefineRing _ _ _ _ h := h
  redefineRing _ _ _ _ _ _ _ _ _ _ h := h
  enrollTrain {s i k u} e _ _ h :=
    Law.works_of_joined h (by rw [State.live, e.free]; rfl) (enrollTrain_live s k u) rfl rfl e.running
  enrollCapture {s i k c} e _ _ h :=
    Law.works_of_joined h (by rw [State.live, e.free]; rfl) (enrollCapture_live s k c) rfl rfl e.running
  enrollFence {s i} tag running idle _ _ _ h :=
    Law.works_of_joined h (by rw [State.live, idle]; rfl) (enrollFence_live s i tag) rfl rfl running
  adjust _ _ _ _ _ _ h := h
  refetch {m s f} free free' _ _ _ h :=
    Law.works_of_same h (fetch_live (by rw [free, free'])) rfl (fun _ => .inl) rfl
  advanceHead {m s} _ free _ _ h :=
    Law.works_of_same h (fetch_live (s := s) (f := .idle) (by rw [free]; rfl)) rfl (fun _ => .inl) rfl
  setTail _ _ _ h := h
  discardHeld _ _ h := h
  clear c _ _ _ :=
    Law.works_of_empty (State.live_eq_false c.trains c.captures (by rw [c.fetch]; rfl)) c.admission c.calendar
  toOff {s} c n d quiescing _ _ h := by
    have none := h.2.2.2 rfl (by simp [quiescing])
    obtain ⟨admission, calendar⟩ := Law.works_empty h none
    obtain ⟨trains, captures, -⟩ := State.noWork_iff.mpr none
    exact Law.works_of_empty (State.live_eq_false (s := s.toOff c n d) trains captures rfl) admission calendar
  enterRunning {s} off _ _ _ h := by
    have none := h.2.2.2 rfl (by simp [off])
    obtain ⟨admission, calendar⟩ := Law.works_empty h none
    exact Law.works_of_empty (s := s.enterRunning) none admission calendar
  configure _ _ _ _ _ _ h := h
  beginSweep _ _ _ _ h := ⟨h.1, h.2.1, h.2.2.1, nofun⟩

theorem OuterMoves.works : OuterMoves .always .works where
  rehost _ _ _ _ h := h
  pop {s o a} _ _ _ h :=
    Law.works_of_same (m := .rest) (t := s.popEntry) h (fun _ => rfl) rfl
      (fun e mem => .inl (List.mem_of_mem_tail mem)) rfl
  count {s} _ _ _ _ h := by
    refine Law.works_of_same (m := .rest) h (fun x => ?_) rfl (fun _ => .inl) rfl
    cases x with
    | fence =>
      change s.fetch.advance.waiting.isSome = s.fetch.waiting.isSome
      cases s.fetch <;> rfl
    | train i => rfl
    | capture i => rfl
  holdReset _ _ _ h := h
  releaseReset _ _ _ h := h

/-! The sweep leaves no work -/

/-- In QUIESCING a report only lowers the count of a waiting fence (R141). -/
theorem State.reportEnd_live (quiescing : s.device = .quiescing) (x : Owner) : s.reportEnd.live x = s.live x := by
  obtain ⟨-, e⟩ | ⟨f, -, -, running, -⟩ | ⟨f, waits, -, e⟩ := s.reportEnd_cases
  · rw [e]
  · rw [quiescing] at running
    cases running
  · rw [e]
    exact fetch_live (by rw [waits]; rfl) x

theorem State.reportEnd_device_quiescing (quiescing : s.device = .quiescing) : s.reportEnd.device = .quiescing := by
  obtain ⟨-, e⟩ | ⟨f, -, -, running, -⟩ | ⟨f, waits, -, e⟩ := s.reportEnd_cases
  · rwa [e]
  · rw [quiescing] at running
    cases running
  · rwa [e]

/-- A work's turn of the sweep ends that work and no other (R189). -/
theorem State.abort_live (quiescing : s.device = .quiescing) (o x : Owner) :
    (s.abort o).live x = (s.live x && !decide (x = o)) := by
  have dead (none : s.live o = false) : s.live x = (s.live x && !decide (x = o)) := by
    by_cases same : x = o
    · rw [same, none]
      rfl
    · simp [same]
  cases o with
  | train i =>
    simp only [State.abort, State.abortTrain]
    cases live : s.train i with
    | none =>
      have closed : s.closeTrain i .aborted false = s := by simp only [State.closeTrain, live]
      rw [closed, State.reportEnd_live quiescing]
      exact dead (by rw [State.live, live]; rfl)
    | some t =>
      rw [State.closeTrain_of_train live]
      exact (State.reportEnd_live (s := endedTrain s i t _ _) quiescing x).trans (endedTrain_live ..)
  | capture i =>
    simp only [State.abort, State.abortCapture]
    cases live : s.capture i with
    | none => exact dead (by rw [State.live, live]; rfl)
    | some c =>
      exact (State.reportEnd_live (s := (s.closeCapture i c .aborted).setCapture i none) quiescing x).trans
        (closeCapture_live s i c .aborted x)
  | fence =>
    simp only [State.abort, State.abortFence]
    cases waits : s.fetch with
    | fenced f => exact endFence_live s f .aborted x
    | idle => exact dead (by rw [State.live, waits]; rfl)
    | reading r => exact dead (by rw [State.live, waits]; rfl)
    | stalled c t => exact dead (by rw [State.live, waits]; rfl)

theorem State.abort_device (quiescing : s.device = .quiescing) (o : Owner) : (s.abort o).device = .quiescing := by
  cases o with
  | train i =>
    refine State.reportEnd_device_quiescing ?_
    cases live : s.train i with
    | none => simpa only [State.closeTrain, live] using quiescing
    | some t => rw [State.closeTrain_of_train live]; exact quiescing
  | capture i =>
    simp only [State.abort, State.abortCapture]
    split
    · exact quiescing
    · exact State.reportEnd_device_quiescing quiescing
  | fence =>
    simp only [State.abort, State.abortFence]
    split
    · exact quiescing
    · exact quiescing

theorem State.foldl_abort_live (l : List Owner) (quiescing : s.device = .quiescing) (x : Owner) :
    (l.foldl State.abort s).live x = (s.live x && !decide (x ∈ l)) := by
  induction l generalizing s with
  | nil => simp
  | cons o l ih =>
    rw [List.foldl_cons, ih (State.abort_device quiescing o), State.abort_live quiescing]
    by_cases same : x = o <;> simp [same]

/-- The sweep has a turn for each work on the list (R189). -/
theorem State.mem_sweepOrder {o : Owner} (listed : o ∈ s.admission) : o ∈ s.sweepOrder := by
  by_cases entry : o ∈ s.calendar.map (·.owner)
  · exact List.mem_append_left _ entry
  · refine List.mem_append_right _ (List.mem_filter.mpr ⟨listed, ?_⟩)
    rw [decide_eq_false entry]
    rfl

/-- The sweep ends every work. -/
theorem Law.works_swept {m : Midway} (quiescing : s.device = .quiescing) (h : Law.works m s) (o : Owner) :
    (s.sweepOrder.foldl State.abort s).live o = false := by
  rw [State.foldl_abort_live _ quiescing]
  cases live : s.live o with
  | false => rfl
  | true => simp [State.mem_sweepOrder ((h.2.1 o).mp live)]

theorem Kept.works : Kept .works := by
  refine Kept.of_blind Moves.works (fun same h => ?_) fun quiescing h swept => ?_
  · obtain ⟨once, listed, entries, rests⟩ := h
    exact ⟨once, listed, entries, fun still => rests (same.trans still)⟩
  · obtain ⟨once, listed, entries, -⟩ := swept
    exact ⟨once, listed, entries, fun _ _ => Law.works_swept quiescing h⟩

end Sys2Proof.Machine
end

section
/-! PROOFS. The calendar (section 1.6): every move keeps it in calendar order, with legal entries and none overdue. -/

namespace Sys2Proof.Machine

set_option Elab.async false

variable {s : State}

/-! Calendar order -/

theorem Time.ahead_inj {now a b : Time} (same : a.ahead now = b.ahead now) : a = b := by
  unfold Time.ahead at same
  bv_omega

/-- Calendar order compares the ticks ahead, and for as many the ranks (R12). -/
theorem State.notAfter_iff (e f : Entry) : s.NotAfter e f ↔ e.due.ahead s.deviceTime < f.due.ahead s.deviceTime
    ∨ e.due.ahead s.deviceTime = f.due.ahead s.deviceTime ∧ s.rank e.owner ≤ s.rank f.owner := by
  refine or_congr_right (and_congr_left' ⟨fun same => by rw [same], Time.ahead_inj⟩)

theorem State.notAfter_trans {e f g : Entry} (ef : s.NotAfter e f) (fg : s.NotAfter f g) : s.NotAfter e g := by
  rw [State.notAfter_iff] at *
  omega

theorem State.notAfter_of_before {e f : Entry} (before : s.standsBefore e f = true) : s.NotAfter e f := by
  simp only [State.standsBefore, Bool.or_eq_true, Bool.and_eq_true, decide_eq_true_eq] at before
  exact before.imp_right fun h => ⟨h.1, Nat.le_of_lt h.2⟩

theorem State.notAfter_of_not_before {e f : Entry} (before : ¬s.standsBefore e f = true) : s.NotAfter f e := by
  simp only [State.standsBefore, Bool.or_eq_true, Bool.and_eq_true, decide_eq_true_eq, not_or, not_and,
    Nat.not_lt] at before
  obtain ⟨later, older⟩ := before
  obtain less | same := Nat.lt_or_eq_of_le later
  · exact .inl less
  · have due := Time.ahead_inj same
    exact .inr ⟨due, older due.symm⟩

/-- An entry put in its place keeps the calendar in order (R12). -/
theorem State.pairwise_placeEntry (e : Entry) {l : List Entry} (order : l.Pairwise s.NotAfter) :
    (placeEntry s.standsBefore e l).Pairwise s.NotAfter := by
  induction l with
  | nil => exact List.pairwise_singleton ..
  | cons f l ih =>
    obtain ⟨first, rest⟩ := List.pairwise_cons.mp order
    unfold placeEntry
    split
    · rename_i before
      have ef := State.notAfter_of_before before
      refine List.pairwise_cons.mpr ⟨fun g mem => ?_, order⟩
      obtain rfl | later := List.mem_cons.mp mem
      · exact ef
      · exact State.notAfter_trans ef (first g later)
    · rename_i after
      refine List.pairwise_cons.mpr ⟨fun g mem => ?_, ih rest⟩
      obtain rfl | later := (mem_placeEntry ..).mp mem
      · exact State.notAfter_of_not_before after
      · exact first g later

/-! Ranks -/

/-- What leaves a list moves no two others past each other. -/
theorem idxOf_filter_le {α : Type} [DecidableEq α] {p : α → Bool} {a b : α} (pa : p a = true) (pb : p b = true)
    {l : List α} (le : l.idxOf a ≤ l.idxOf b) : (l.filter p).idxOf a ≤ (l.filter p).idxOf b := by
  induction l with
  | nil => exact le
  | cons c l ih =>
    by_cases first : c = a
    · rw [first, List.filter_cons_of_pos pa, List.idxOf_cons_self]
      exact Nat.zero_le _
    · have other : c ≠ b := by
        rintro rfl
        rw [List.idxOf_cons_self, List.idxOf_cons_ne _ first] at le
        cases le
      rw [List.idxOf_cons_ne _ first, List.idxOf_cons_ne _ other] at le
      have tail := ih (Nat.le_of_succ_le_succ le)
      by_cases stays : p c = true
      · rw [List.filter_cons_of_pos stays, List.idxOf_cons_ne _ first, List.idxOf_cons_ne _ other]
        exact Nat.succ_le_succ tail
      · rwa [List.filter_cons_of_neg stays]

/-- The law of the calendar (R12, R14). -/
def Law.calendar : Law := fun _ s => s.CalendarSound

theorem Law.calendar_listed {m : Midway} (works : Law.works m s) {e : Entry} (mem : e ∈ s.calendar) :
    e.owner ∈ s.admission := (works.2.1 e.owner).mp (works.2.2.1 e mem)

/-- A work leaves with its entries (R17). -/
theorem State.calendarSound_of_left {t : State} (h : s.CalendarSound) (o : Owner)
    (admission : t.admission = s.admission.filter fun w => !decide (w = o))
    (calendar : t.calendar = s.calendar.filter fun e => !decide (e.owner = o)) (now : t.deviceTime = s.deviceTime)
    (restart : t.timeRestart = s.timeRestart) (held : t.resetHeld = s.resetHeld) : t.CalendarSound := by
  obtain ⟨order, each, zero⟩ := h
  unfold State.CalendarSound
  rw [calendar, now, restart, held]
  refine ⟨?_, fun e mem => each e (List.mem_of_mem_filter mem), zero⟩
  refine (order.filter _).imp_of_mem fun {e f} he hf notAfter => ?_
  obtain less | ⟨due, rank⟩ := notAfter
  · exact .inl (now ▸ less)
  · refine .inr ⟨due, ?_⟩
    rw [State.rank, State.rank, admission]
    exact idxOf_filter_le (p := fun w => !decide (w = o)) (List.mem_filter.mp he).2 (List.mem_filter.mp hf).2 rank

/-- A work joins behind all others (R11). -/
theorem State.calendarSound_of_joined {m : Midway} {t : State} (works : Law.works m s) (h : s.CalendarSound)
    (o : Owner) (admission : t.admission = s.admission ++ [o]) (calendar : t.calendar = s.calendar)
    (now : t.deviceTime = s.deviceTime) (restart : t.timeRestart = s.timeRestart)
    (held : t.resetHeld = s.resetHeld) : t.CalendarSound := by
  obtain ⟨order, each, zero⟩ := h
  unfold State.CalendarSound
  rw [calendar, now, restart, held]
  refine ⟨order.imp_of_mem fun {e f} he hf notAfter => ?_, each, zero⟩
  have same {x : Entry} (hx : x ∈ s.calendar) : t.rank x.owner = s.rank x.owner := by
    rw [State.rank, admission]
    exact List.idxOf_append_of_mem (Law.calendar_listed works hx)
  rw [State.NotAfter, now, same he, same hf]
  exact notAfter

/-- An entry made keeps the calendar sound (R13). -/
theorem State.calendarSound_insert (h : s.CalendarSound) {o : Owner} {a : Action} {due : Time}
    (legal : Entry.legal { due := due, owner := o, action := a } = true) : (s.insert o a due).CalendarSound := by
  obtain ⟨ahead, e⟩ | ⟨-, e⟩ := s.insert_cases o a due
  · rw [e]
    obtain ⟨order, each, zero⟩ := h
    refine ⟨State.pairwise_placeEntry _ order, fun f mem => ?_, zero⟩
    obtain rfl | old := (mem_placeEntry ..).mp mem
    · refine ⟨legal, ?_⟩
      simp only [isFuture, Bool.and_eq_true, decide_eq_true_eq] at ahead
      exact ahead.2
    · exact each f old
  · rwa [e]

/-- An empty calendar is sound, at any time that is allowed while a restart is awaited. -/
theorem State.calendarSound_of_empty (calendar : s.calendar = [])
    (zero : s.timeRestart = true ∨ s.resetHeld = true → s.deviceTime = 0) : s.CalendarSound := by
  unfold State.CalendarSound
  rw [calendar]
  exact ⟨.nil, nofun, zero⟩

theorem State.not_live_of_not_anyLive (none : s.anyLive = false) (idle : s.fetch = .idle) (o : Owner) :
    s.live o = false := by
  simp only [State.anyLive, Bool.or_eq_false_iff, List.any_eq_false, List.mem_finRange, forall_const,
    Bool.not_eq_true] at none
  cases o with
  | train i => exact none.1 i
  | capture i => exact none.2 i
  | fence => rw [State.live, idle]; rfl

theorem Moves.calendar : Moves .works .calendar where
  quiet q _ _ h := by rw [q]; exact h
  settle _ _ _ _ h := h
  unpop _ _ _ h := h
  closeTrain {_ _ i _} _ _ _ _ _ h := State.calendarSound_of_left h (.train i) rfl rfl rfl rfl rfl
  closeCapture {_ _ i _} _ _ _ _ h := State.calendarSound_of_left h (.capture i) rfl rfl rfl rfl rfl
  endFence _ _ _ _ _ _ h := State.calendarSound_of_left h .fence rfl rfl rfl rfl rfl
  lowerCount _ _ _ _ _ h := h
  reportNone _ _ _ _ h := h
  retrain _ _ _ _ _ h := h
  wake _ _ _ _ _ _ _ h := h
  insertEntry _ _ legal _ _ _ h := State.calendarSound_insert h legal
  recapture _ _ _ _ _ h := h
  touchLine _ _ _ h := h
  easeRing _ _ _ h := h
  faultRing _ _ _ _ h := h
  stageFree _ _ _ _ _ h := h
  reserve _ _ _ _ h := h
  answer _ _ _ h := h
  undefineRing _ _ _ _ h := h
  redefineRing _ _ _ _ _ _ _ _ _ _ h := h
  enrollTrain {_ _ k _} _ works _ h := State.calendarSound_of_joined works h (.train k) rfl rfl rfl rfl rfl
  enrollCapture {_ _ k _} _ works _ h := State.calendarSound_of_joined works h (.capture k) rfl rfl rfl rfl rfl
  enrollFence _ _ _ _ works _ h := State.calendarSound_of_joined works h .fence rfl rfl rfl rfl rfl
  adjust {_ s} v none idle awake works _ _ := by
    refine State.calendarSound_of_empty (s := s.adjust v)
      (Law.works_empty works (State.not_live_of_not_anyLive none idle)).2 fun restart => ?_
    obtain restart | held := restart
    · cases restart
    · exact absurd (awake.symm.trans held) nofun
  refetch _ _ _ _ _ h := h
  advanceHead _ _ _ _ h := h
  setTail _ _ _ h := h
  discardHeld _ _ h := h
  clear c _ _ h := by
    refine State.calendarSound_of_empty c.calendar fun restart => ?_
    obtain ⟨now, pending⟩ | zero := c.clock
    · rw [pending, c.resetHeld] at restart
      rw [now]
      exact h.2.2 restart
    · exact zero
  toOff _ _ _ _ _ _ h := h
  enterRunning _ _ _ _ h := h
  configure _ _ _ _ _ _ h := h
  beginSweep _ _ _ _ h := h

/-! The tick -/

/-- With nothing due every entry lies ahead (R15). -/
theorem State.ahead_of_none_due (h : s.CalendarSound) (awake : s.resetHeld = false) (none : s.dueEvents = []) :
    ∀ e ∈ s.calendar, 1 ≤ e.due.ahead s.deviceTime := by
  obtain ⟨order, each, -⟩ := h
  cases calendar : s.calendar with
  | nil => nofun
  | cons e rest =>
    rw [calendar] at order each
    have head : e.due ≠ s.deviceTime := by
      intro now
      obtain ⟨c, mem⟩ : ∃ c, Due.own c ∈ e.delivery := by
        have legal := (each e List.mem_cons_self).1
        obtain ⟨due, owner, action⟩ := e
        cases owner <;> cases action <;>
          simp_all [Entry.legal, Entry.delivery]
      have due := (State.own_mem_dueEvents c).mpr
        ⟨awake, .inl ((State.mem_calendarDue _).mpr ⟨e, rest, calendar, now, mem⟩)⟩
      rw [none] at due
      cases due
    have first : 1 ≤ e.due.ahead s.deviceTime := by
      refine Nat.one_le_iff_ne_zero.mpr fun zero => head (Time.ahead_inj (now := s.deviceTime) ?_)
      rw [zero]
      simp [Time.ahead]
    intro f mem
    obtain rfl | later := List.mem_cons.mp mem
    · exact first
    · obtain less | ⟨same, -⟩ := (List.pairwise_cons.mp order).1 f later
      · exact first.trans (Nat.le_of_lt less)
      · exact same ▸ first

/-- One tick on, a time that lies ahead lies one tick less ahead. -/
theorem Time.ahead_succ {t now : Time} (ahead : 1 ≤ t.ahead now) : t.ahead (now + 1) = t.ahead now - 1 := by
  unfold Time.ahead at *
  bv_omega

theorem State.calendarSound_count (h : s.CalendarSound) (awake : s.resetHeld = false) (none : s.dueEvents = []) :
    s.count.CalendarSound := by
  have ahead := State.ahead_of_none_due h awake none
  obtain ⟨order, each, zero⟩ := h
  have calm : s.count.timeRestart = true ∨ s.count.resetHeld = true → s.count.deviceTime = 0 := by
    rintro (restart | held)
    · cases restart
    · exact absurd (awake.symm.trans held) nofun
  cases restart : s.timeRestart with
  | true =>
    have now : s.count.deviceTime = s.deviceTime := by
      rw [zero (.inl restart)]
      exact if_pos restart
    have same (e f : Entry) : s.count.NotAfter e f ↔ s.NotAfter e f := by
      rw [State.NotAfter, now]
      rfl
    refine ⟨order.imp fun {e f} => (same e f).mpr, fun e mem => ?_, calm⟩
    rw [now]
    exact each e mem
  | false =>
    have now : s.count.deviceTime = s.deviceTime + 1 := if_neg (by simp [restart])
    have lower {e : Entry} (mem : e ∈ s.calendar) :
        e.due.ahead s.count.deviceTime = e.due.ahead s.deviceTime - 1 := by
      rw [now]
      exact Time.ahead_succ (ahead e mem)
    refine ⟨order.imp_of_mem fun {e f} he hf notAfter => ?_, fun e mem => ?_, calm⟩
    · obtain less | same := notAfter
      · refine .inl ?_
        rw [lower he, lower hf]
        have := ahead e he
        omega
      · exact .inr same
    · rw [lower mem]
      obtain ⟨legal, bound⟩ := each e mem
      exact ⟨legal, (Nat.sub_le ..).trans bound⟩

theorem OuterMoves.calendar : OuterMoves .works .calendar where
  rehost _ _ _ _ h := h
  pop {s _ _} _ _ _ h := by
    obtain ⟨order, each, zero⟩ := h
    exact ⟨order.tail, fun e mem => each e (List.mem_of_mem_tail mem), zero⟩
  count awake none _ _ h := State.calendarSound_count h awake none
  holdReset zero _ _ h := ⟨h.1, h.2.1, fun _ => zero⟩
  releaseReset held _ _ h := ⟨h.1, h.2.1, fun _ => h.2.2 (.inr held)⟩

theorem Kept.calendar : Kept (Law.works.and .calendar) := by
  refine Kept.of_blind (Moves.works.and (fun _ _ h => h) Moves.calendar) (fun same h => ?_) fun quiescing h swept => ?_
  · obtain ⟨⟨once, listed, entries, rests⟩, calendar⟩ := h
    exact ⟨⟨once, listed, entries, fun still => rests (same.trans still)⟩, calendar⟩
  · obtain ⟨⟨once, listed, entries, -⟩, calendar⟩ := swept
    exact ⟨⟨once, listed, entries, fun _ _ => Law.works_swept quiescing h.1⟩, calendar⟩

/-- Settles O9: each move that a step is made of keeps the calendar sound, under the account of works. -/
theorem noCalendarEntryIsOverdue : Obligations.NoCalendarEntryIsOverdue := by
  intro s t works calendar result
  have kept := Kept.calendar.step (OuterMoves.works.and (fun _ _ h => h) OuterMoves.calendar)
    ⟨Law.works_rest.mpr works, calendar⟩ result
  exact ⟨Law.works_rest.mp kept.1, kept.2⟩

end Sys2Proof.Machine
end

section
/-! PROOFS. The tag map (section 5.1): every move keeps it the map of the live trains and captures by their tags, and
the fence's count their number. -/

namespace Sys2Proof.Machine

set_option Elab.async false

variable {s : State}

/-- The tag map holds the live trains and captures by their tags, each once; a waiting fence counts these and the ends
not yet reported, and, when no sweep is under way, at least one. -/
def Law.tags : Law := fun m s =>
  (s.tagMap.map (·.1)).Nodup ∧ (∀ g w, (g, w) ∈ s.tagMap ↔ s.tagOf w = some g) ∧ (∀ e ∈ s.tagMap, e.1 ≠ 0)
    ∧ ∀ f ∈ s.fetch.waiting, f.count = s.tagMap.length + m.unreported ∧ (m.sweeping = false → f.count ≠ 0)

theorem Law.tags_rest : Law.tags .rest s ↔ s.TagsSound := by
  have all {w : Work} (live : (s.tagOf w).isSome = true) (named : ∀ g, (g, w) ∈ s.tagMap ↔ s.tagOf w = some g) :
      w ∈ s.tagMap.map (·.2) := by
    obtain ⟨g, tag⟩ := Option.isSome_iff_exists.mp live
    exact List.mem_map_of_mem (f := (·.2)) ((named g).mpr tag)
  constructor
  · rintro ⟨once, named, zero, fence⟩
    refine ⟨once, fun e mem => ⟨zero e mem, (named e.1 e.2).mp mem⟩, fun i live => ?_, fun i live => ?_,
      fun f waits => ?_⟩
    · exact all (by simpa [State.tagOf] using live) fun g => named g _
    · exact all (by simpa [State.tagOf] using live) fun g => named g _
    · obtain ⟨count, some⟩ := fence f waits
      exact ⟨count, some rfl⟩
  · rintro ⟨once, named, trains, captures, fence⟩
    refine ⟨once, fun g w => ⟨fun mem => (named _ mem).2, fun tag => ?_⟩, fun e mem => (named e mem).1,
      fun f waits => ⟨(fence f waits).1, fun _ => (fence f waits).2⟩⟩
    have mem : w ∈ s.tagMap.map (·.2) := by
      have live : (s.tagOf w).isSome = true := by rw [tag]; rfl
      cases w with
      | train i => exact trains i (by simpa [State.tagOf] using live)
      | capture i => exact captures i (by simpa [State.tagOf] using live)
    obtain ⟨⟨g', w'⟩, entry, rfl⟩ := List.mem_map.mp mem
    obtain rfl : g' = g := Option.some.inj ((named _ entry).2.symm.trans tag)
    exact entry

/-- Tags are those of one work each. -/
theorem Law.tags_unique {m : Midway} (h : Law.tags m s) {w x : Work} {g : Tag} (hw : s.tagOf w = some g)
    (hx : s.tagOf x = some g) : w = x := by
  obtain ⟨once, named, -⟩ := h
  have same := List.inj_on_of_nodup_map once ((named g w).mpr hw) ((named g x).mpr hx) rfl
  exact (Prod.mk.inj same).2

/-- A tag's entry is the one that names its work. -/
theorem Law.tags_dropped {m : Midway} (h : Law.tags m s) {w : Work} {g : Tag} (hw : s.tagOf w = some g) :
    (s.tagMap.filter fun e => !decide (e.2 = w)).length + 1 = s.tagMap.length := by
  obtain ⟨once, named, -⟩ := h
  have mem := (named g w).mpr hw
  have same : (s.tagMap.filter fun e => !decide (e.2 = w)) = s.tagMap.erase (g, w) := by
    rw [(List.Nodup.of_map _ once).erase_eq_filter]
    refine List.filter_congr fun e he => ?_
    have only : e.2 = w ↔ e = (g, w) := by
      constructor
      · rintro rfl
        exact Prod.ext (Option.some.inj (((named e.1 e.2).mp he).symm.trans hw)) rfl
      · rintro rfl
        rfl
    rw [bne, beq_eq_decide]
    exact congrArg (!·) (decide_eq_decide.mpr only)
  rw [same, List.length_erase_of_mem mem]
  exact Nat.succ_pred_eq_of_pos (List.length_pos_of_mem mem)

/-- A train or capture ends: its name goes, and its end is to be reported. -/
theorem Law.tags_of_left {m m' : Midway} {t : State} {w : Work} {g : Tag} (h : Law.tags m s)
    (live : s.tagOf w = some g) (tagOf : ∀ x, t.tagOf x = if x = w then none else s.tagOf x)
    (tagMap : t.tagMap = s.tagMap.filter fun e => !decide (e.2 = w)) (fetch : t.fetch = s.fetch)
    (unreported : m'.unreported = m.unreported + 1) (sweeping : m'.sweeping = m.sweeping) : Law.tags m' t := by
  have dropped := Law.tags_dropped h live
  obtain ⟨once, named, zero, fence⟩ := h
  refine ⟨?_, fun g' x => ?_, fun e mem => ?_, fun f waits => ?_⟩
  · rw [tagMap]
    exact once.sublist (List.filter_sublist.map _)
  · rw [tagMap, tagOf, List.mem_filter, named]
    by_cases same : x = w <;> simp [same]
  · rw [tagMap] at mem
    exact zero e (List.mem_of_mem_filter mem)
  · obtain ⟨count, some⟩ := fence f (fetch ▸ waits)
    refine ⟨?_, fun still => some (sweeping ▸ still)⟩
    rw [tagMap, unreported, count]
    omega

/-- A train or capture is admitted under a fresh tag, while no fence waits. -/
theorem Law.tags_of_joined {m m' : Midway} {t : State} {w : Work} {g : Tag} (h : Law.tags m s)
    (free : s.tagOf w = none) (fresh : g ≠ 0 ∧ ∀ e ∈ s.tagMap, e.1 ≠ g)
    (tagOf : ∀ x, t.tagOf x = if x = w then some g else s.tagOf x) (tagMap : t.tagMap = s.tagMap ++ [(g, w)])
    (unfenced : t.fetch.waiting = none) : Law.tags m' t := by
  obtain ⟨once, named, zero, -⟩ := h
  refine ⟨?_, fun g' x => ?_, fun e mem => ?_, fun f waits => ?_⟩
  · rw [tagMap, List.map_append]
    refine once.append (List.nodup_singleton _) (List.disjoint_singleton.mpr fun mem => ?_)
    obtain ⟨e, he, same⟩ := List.mem_map.mp mem
    exact fresh.2 e he same
  · rw [tagMap, tagOf, List.mem_append, List.mem_singleton, named, Prod.mk.injEq]
    by_cases same : x = w
    · simp [same, free, eq_comm]
    · simp [same]
  · rw [tagMap, List.mem_append, List.mem_singleton] at mem
    obtain old | rfl := mem
    · exact zero e old
    · exact fresh.1
  · rw [unfenced] at waits
    cases waits

/-- Each work bears the tag it bore, and no fence waits. -/
theorem Law.tags_of_unfenced {m m' : Midway} {t : State} (h : Law.tags m s) (tagOf : ∀ x, t.tagOf x = s.tagOf x)
    (tagMap : t.tagMap = s.tagMap) (unfenced : t.fetch.waiting = none) : Law.tags m' t := by
  obtain ⟨once, named, zero, -⟩ := h
  unfold Law.tags
  simp only [tagOf, tagMap, unfenced]
  exact ⟨once, named, zero, nofun⟩

/-- Each work bears the tag it bore, and a fence that waits is the one that waited. -/
theorem Law.tags_of_same {m m' : Midway} {t : State} (h : Law.tags m s) (tagOf : ∀ x, t.tagOf x = s.tagOf x)
    (tagMap : t.tagMap = s.tagMap) (waiting : t.fetch.waiting = s.fetch.waiting)
    (unreported : m'.unreported = m.unreported) (sweeping : m'.sweeping = m.sweeping) : Law.tags m' t := by
  unfold Law.tags at *
  simp only [tagOf, tagMap, waiting, unreported, sweeping]
  exact h

/-! The tags of works -/

theorem endedTrain_tagOf (s : State) (i : Fin 32) (t : Train) (st : Status) (r : Completion) (x : Work) :
    (endedTrain s i t st r).tagOf x = if x = .train i then none else s.tagOf x := by
  cases x with
  | train j =>
    rw [State.tagOf, endedTrain_train]
    by_cases same : i = j
    · simp [same]
    · simp [same, Ne.symm same, State.tagOf]
  | capture j => simp [State.tagOf, endedTrain]

theorem closeCapture_tagOf (s : State) (i : Fin 16) (c : Capture) (st : Status) (x : Work) :
    ((s.closeCapture i c st).setCapture i none).tagOf x = if x = .capture i then none else s.tagOf x := by
  cases x with
  | capture j =>
    rw [State.tagOf, State.capture_setCapture]
    by_cases same : i = j
    · simp [same]
    · simp [same, Ne.symm same, State.tagOf]
      rfl
  | train j => rfl

theorem setTrain_tagOf {i : Fin 32} {u t : Train} (live : s.train i = some u) (same : t.tag = u.tag) (x : Work) :
    (s.setTrain i (some t)).tagOf x = s.tagOf x := by
  cases x with
  | train j =>
    rw [State.tagOf, State.train_setTrain]
    split
    · rename_i self
      rw [← self, State.tagOf, live]
      exact congrArg some same
    · rfl
  | capture j => rfl

theorem setCapture_tagOf {i : Fin 16} {c d : Capture} (live : s.capture i = some c) (same : d.tag = c.tag)
    (x : Work) : (s.setCapture i (some d)).tagOf x = s.tagOf x := by
  cases x with
  | capture j =>
    rw [State.tagOf, State.capture_setCapture]
    split
    · rename_i self
      rw [← self, State.tagOf, live]
      exact congrArg some same
    · rfl
  | train j => rfl

theorem enrollTrain_tagOf (s : State) (k : Fin 32) (u : Train) (x : Work) :
    (s.enrollTrain k u).tagOf x = if x = .train k then some u.tag else s.tagOf x := by
  cases x with
  | train j =>
    have slot : (s.enrollTrain k u).train j = if k = j then some u else s.train j := State.train_setTrain (s := s) ..
    rw [State.tagOf, slot]
    by_cases same : k = j
    · simp [same]
    · simp [same, Ne.symm same, State.tagOf]
  | capture j => rfl

theorem enrollCapture_tagOf (s : State) (k : Fin 16) (c : Capture) (x : Work) :
    (s.enrollCapture k c).tagOf x = if x = .capture k then some c.tag else s.tagOf x := by
  cases x with
  | capture j =>
    have slot : (s.enrollCapture k c).capture j = if k = j then some c else s.capture j :=
      State.capture_setCapture (s := s) ..
    rw [State.tagOf, slot]
    by_cases same : k = j
    · simp [same]
    · simp [same, Ne.symm same, State.tagOf]
  | train j => rfl

theorem Moves.tags : Moves .works .tags where
  quiet q _ _ h := by rw [q]; exact h
  settle _ _ _ _ h := h
  unpop _ _ _ h := h
  closeTrain {m s i t} st r live _ _ h :=
    Law.tags_of_left h (w := .train i) (g := t.tag) (by rw [State.tagOf, live]; rfl) (endedTrain_tagOf s i t st r) rfl
      rfl (by simp only [Midway.closed]) (by simp only [Midway.closed, Midway.forget])
  closeCapture {m s i c} st live _ _ h :=
    Law.tags_of_left h (w := .capture i) (g := c.tag) (by rw [State.tagOf, live]; rfl) (closeCapture_tagOf s i c st) rfl
      rfl (by simp only [Midway.closed]) (by simp only [Midway.closed, Midway.forget])
  endFence _ _ _ _ _ _ h := Law.tags_of_unfenced h (fun x => by cases x <;> rfl) rfl rfl
  lowerCount {m s f} waits one more works _ h := by
    obtain ⟨once, named, zero, fence⟩ := h
    refine ⟨once, named, zero, fun g waits' => ?_⟩
    obtain rfl := Option.some.inj waits'
    obtain ⟨count, -⟩ := fence f (by rw [waits]; rfl)
    refine ⟨?_, fun still none => ?_⟩
    · change f.count - 1 = s.tagMap.length + (m.unreported - 1)
      omega
    · have on : s.device = .running := by
        by_contra off
        have dead := works.2.2.2 still off .fence
        rw [State.live, waits] at dead
        cases dead
      exact more ⟨none, on⟩
  reportNone {m s} free _ _ _ h := Law.tags_of_unfenced h (fun _ => rfl) rfl free
  retrain {m s i u t} live same _ _ _ h := Law.tags_of_same h (setTrain_tagOf live same.tag) rfl rfl rfl rfl
  wake {m s i u t} _ live same _ _ _ _ h := Law.tags_of_same h (setTrain_tagOf live same.tag) rfl rfl rfl rfl
  insertEntry _ _ _ _ _ _ h := by rw [State.insert_eq]; exact h
  recapture live tag _ _ _ h := Law.tags_of_same h (setCapture_tagOf live tag) rfl rfl rfl rfl
  touchLine _ _ _ h := h
  easeRing _ _ _ h := h
  faultRing _ _ _ _ h := h
  stageFree _ _ _ _ _ h := h
  reserve _ _ _ _ h := h
  answer _ _ _ h := h
  undefineRing _ _ _ _ h := h
  redefineRing _ _ _ _ _ _ _ _ _ _ h := h
  enrollTrain {s i k u} e _ _ h :=
    Law.tags_of_joined h (w := .train k) (by rw [State.tagOf, e.free]; rfl) e.tag (enrollTrain_tagOf s k u) rfl
      (by change s.fetch.waiting = none; rw [e.idle]; rfl)
  enrollCapture {s i k c} e _ _ h :=
    Law.tags_of_joined h (w := .capture k) (by rw [State.tagOf, e.free]; rfl) e.tag (enrollCapture_tagOf s k c) rfl
      (by change s.fetch.waiting = none; rw [e.idle]; rfl)
  enrollFence {s i} tag _ _ some _ _ h := by
    obtain ⟨once, named, zero, -⟩ := h
    refine ⟨once, fun g w => by cases w <;> exact named g _, zero, fun f waits => ?_⟩
    obtain rfl := Option.some.inj waits
    exact ⟨rfl, fun _ => some⟩
  adjust _ _ _ _ _ _ h := h
  refetch _ free _ _ _ h := Law.tags_of_unfenced h (fun x => by cases x <;> rfl) rfl free
  advanceHead _ _ _ _ h := Law.tags_of_unfenced h (fun x => by cases x <;> rfl) rfl rfl
  setTail _ _ _ h := h
  discardHeld _ _ h := h
  clear {s s'} c _ _ _ := by
    unfold Law.tags
    rw [c.tagMap, c.fetch]
    refine ⟨List.nodup_nil, fun g w => ?_, nofun, nofun⟩
    cases w with
    | train i => simp [State.tagOf, c.trains]
    | capture i => simp [State.tagOf, c.captures]
  toOff _ _ _ _ _ _ h := Law.tags_of_unfenced h (fun x => by cases x <;> rfl) rfl rfl
  enterRunning _ _ _ _ h := h
  configure _ _ _ _ _ _ h := h
  beginSweep _ _ _ _ h := ⟨h.1, h.2.1, h.2.2.1, fun f waits => ⟨(h.2.2.2 f waits).1, nofun⟩⟩

theorem Fetch.advance_waiting (f : Fetch) : f.advance.waiting = f.waiting := by cases f <;> rfl

theorem OuterMoves.tags : OuterMoves .works .tags where
  rehost _ _ _ _ h := h
  pop _ _ _ h := h
  count {s} _ _ _ _ h :=
    Law.tags_of_same h (fun x => by cases x <;> rfl) rfl (Fetch.advance_waiting _) rfl rfl
  holdReset _ _ _ h := h
  releaseReset _ _ _ h := h

end Sys2Proof.Machine
end

section
/-! PROOFS. The rings' account (section 7.2): every move keeps one place owed for each live work, and for the record
that is processed, and no account above 64. -/

namespace Sys2Proof.Machine

set_option Elab.async false

variable {s : State}

/-! How many works report to a ring -/

/-- The ring that a live work reports to. -/
def State.reports (s : State) : Owner → Option (Fin 4)
  | .train i => (s.train i).map (·.ring)
  | .capture i => (s.capture i).map (·.ring)
  | .fence => s.fetch.waiting.map (·.ring)

/-- Every owner that a work can have, once. -/
def everyOwner : List Owner :=
  (List.finRange 32).map Owner.train ++ (List.finRange 16).map Owner.capture ++ [.fence]

theorem everyOwner_nodup : everyOwner.Nodup := by decide

theorem mem_everyOwner (o : Owner) : o ∈ everyOwner := by
  cases o <;> simp [everyOwner]

/-- The works that report to a ring, counted over the owners. -/
theorem State.worksOn_eq (s : State) (i : Fin 4) :
    s.worksOn i = everyOwner.countP fun o => decide (s.reports o = some i) := by
  have slot {α : Type} {ring : α → Fin 4} (x : Option α) :
      (x.any fun u => decide (ring u = i)) = decide (x.map ring = some i) := by
    cases x <;> simp
  unfold State.worksOn everyOwner Train.owes Capture.owes Fence.owes
  rw [List.countP_append, List.countP_append, List.countP_map, List.countP_map, List.countP_singleton]
  simp only [slot]
  rfl

/-- Of a list that holds each element once, one element's standing changes the count by its own part. -/
theorem countP_update {α : Type} [DecidableEq α] {l : List α} (once : l.Nodup) {a : α} (mem : a ∈ l) {p q : α → Bool}
    (others : ∀ x, x ≠ a → q x = p x) :
    l.countP q + (if p a then 1 else 0) = l.countP p + (if q a then 1 else 0) := by
  have rest : (l.erase a).countP q = (l.erase a).countP p :=
    List.countP_congr fun x hx => by rw [others x fun same => once.not_mem_erase (same ▸ hx)]
  rw [(List.perm_cons_erase mem).countP_eq, (List.perm_cons_erase mem).countP_eq, List.countP_cons, List.countP_cons,
    rest]
  omega

/-- One work's report changes the works on a ring by its own part. -/
theorem State.worksOn_update {t : State} {o : Owner} (others : ∀ x, x ≠ o → t.reports x = s.reports x) (i : Fin 4) :
    t.worksOn i + (if s.reports o = some i then 1 else 0) = s.worksOn i + (if t.reports o = some i then 1 else 0) := by
  rw [State.worksOn_eq, State.worksOn_eq]
  simpa only [decide_eq_true_eq] using countP_update everyOwner_nodup (mem_everyOwner o)
    (p := fun x => decide (s.reports x = some i)) (q := fun x => decide (t.reports x = some i))
    fun x hx => by rw [others x hx]

theorem State.worksOn_congr {t : State} (same : ∀ x, t.reports x = s.reports x) (i : Fin 4) :
    t.worksOn i = s.worksOn i := by
  rw [State.worksOn_eq, State.worksOn_eq]
  simp only [same]

theorem State.worksOn_pos {o : Owner} {i : Fin 4} (on : s.reports o = some i) : 1 ≤ s.worksOn i := by
  rw [State.worksOn_eq]
  exact List.countP_pos_iff.mpr ⟨o, mem_everyOwner o, decide_eq_true on⟩

theorem State.reports_eq_none {o : Owner} (dead : s.live o = false) : s.reports o = none := by
  cases o <;> simpa [State.live, State.reports] using dead

theorem State.worksOn_eq_zero (none : ∀ o, s.live o = false) (i : Fin 4) : s.worksOn i = 0 := by
  rw [State.worksOn_eq, List.countP_eq_zero]
  intro o _
  rw [State.reports_eq_none (none o)]
  simp

/-! The account -/

/-- The places held for the record that is processed. -/
def Midway.held (m : Midway) (i : Fin 4) : Nat := if m.place = some i then 1 else 0

/-- Each ring owes a place for each live work that reports to it, and for the record that is processed; its account
does not exceed 64, and an UNDEFINED ring's is empty. -/
def Law.accounts : Law := fun m s => ∀ i,
  (s.ring i).owed = s.worksOn i + m.held i ∧ (s.ring i).account ≤ Config.accountPlaces
    ∧ ((s.ring i).state = .undefined → (s.ring i).account = 0)

theorem Law.accounts_rest : Law.accounts .rest s ↔ s.AccountsSound := Iff.rfl

/-- A final takes a place that was owed (R149). -/
theorem Law.accounts_of_final {m m' : Midway} {t : State} (h : Law.accounts m s) {i : Fin 4} {r : Completion}
    (ring : ∀ j, t.ring j = if i = j then
      { s.ring i with staged := (s.ring i).staged ++ [r], owed := (s.ring i).owed - 1 } else s.ring j)
    (owed : ∀ j, t.worksOn j + m'.held j + (if some i = some j then 1 else 0) = s.worksOn j + m.held j) :
    Law.accounts m' t := by
  intro j
  obtain ⟨works, most, undefined⟩ := h j
  have counted := owed j
  rw [ring]
  by_cases same : i = j
  · subst same
    rw [if_pos rfl] at counted ⊢
    have account : (s.ring i).staged.length + 1 + ((s.ring i).owed - 1) = (s.ring i).account := by
      simp only [Ring.account]
      omega
    have total : Ring.account { s.ring i with
        staged := (s.ring i).staged ++ [r], owed := (s.ring i).owed - 1 } = (s.ring i).account := by
      rw [← account]
      simp only [Ring.account, List.length_append, List.length_singleton]
    refine ⟨?_, total ▸ most, fun state => total ▸ undefined state⟩
    change (s.ring i).owed - 1 = _
    omega
  · rw [if_neg same]
    rw [if_neg fun e => same (Option.some.inj e)] at counted
    exact ⟨by omega, most, undefined⟩

/-- No ring changes its account, and the works on each are as many. -/
theorem Law.accounts_of_same {m m' : Midway} {t : State} (h : Law.accounts m s)
    (ring : ∀ j, (t.ring j).state = (s.ring j).state ∧ (t.ring j).staged = (s.ring j).staged
      ∧ (t.ring j).owed = (s.ring j).owed)
    (owed : ∀ j, t.worksOn j + m'.held j = s.worksOn j + m.held j) : Law.accounts m' t := by
  intro j
  obtain ⟨works, most, undefined⟩ := h j
  obtain ⟨state, staged, places⟩ := ring j
  simp only [Ring.account] at *
  rw [state, staged, places]
  exact ⟨works.trans (owed j).symm, most, undefined⟩

/-- One ring changes. -/
theorem Law.accounts_setRing {m m' : Midway} (h : Law.accounts m s) {i : Fin 4} {r : Ring}
    (held : ∀ j, j ≠ i → m'.held j = m.held j) (owed : r.owed = s.worksOn i + m'.held i)
    (most : r.account ≤ Config.accountPlaces) (undefined : r.state = .undefined → r.account = 0) :
    Law.accounts m' (s.setRing i r) := by
  intro j
  rw [State.ring_setRing]
  by_cases same : i = j
  · subst same
    rw [if_pos rfl]
    exact ⟨owed, most, undefined⟩
  · rw [if_neg same, held j (Ne.symm same)]
    exact h j

/-! What the moves do to the reports -/

theorem endedTrain_reports (s : State) (i : Fin 32) (t : Train) (st : Status) (r : Completion) (x : Owner) :
    (endedTrain s i t st r).reports x = if x = .train i then none else s.reports x := by
  cases x with
  | train j =>
    rw [State.reports, endedTrain_train]
    by_cases same : i = j
    · simp [same]
    · simp [same, Ne.symm same, State.reports]
  | capture j => simp [State.reports, endedTrain]
  | fence => simp [State.reports, endedTrain]

theorem closeCapture_reports (s : State) (i : Fin 16) (c : Capture) (st : Status) (x : Owner) :
    ((s.closeCapture i c st).setCapture i none).reports x = if x = .capture i then none else s.reports x := by
  cases x with
  | capture j =>
    rw [State.reports, State.capture_setCapture]
    by_cases same : i = j
    · simp [same]
    · simp [same, Ne.symm same, State.reports]
      rfl
  | train j => rfl
  | fence => rfl

theorem setTrain_reports {i : Fin 32} {u t : Train} (live : s.train i = some u) (same : t.ring = u.ring) (x : Owner) :
    (s.setTrain i (some t)).reports x = s.reports x := by
  cases x with
  | train j =>
    rw [State.reports, State.train_setTrain]
    split
    · rename_i self
      rw [← self, State.reports, live]
      exact congrArg some same
    · rfl
  | capture j => rfl
  | fence => rfl

theorem setCapture_reports {i : Fin 16} {c d : Capture} (live : s.capture i = some c) (same : d.ring = c.ring)
    (x : Owner) : (s.setCapture i (some d)).reports x = s.reports x := by
  cases x with
  | capture j =>
    rw [State.reports, State.capture_setCapture]
    split
    · rename_i self
      rw [← self, State.reports, live]
      exact congrArg some same
    · rfl
  | train j => rfl
  | fence => rfl

/-- The report of a fence alone is read off the unit. -/
theorem fetch_reports {f : Fetch} (same : f.waiting.map (·.ring) = s.fetch.waiting.map (·.ring)) (x : Owner) :
    ({ s with fetch := f } : State).reports x = s.reports x := by
  cases x with
  | fence => exact same
  | train j => rfl
  | capture j => rfl

/-- A work has ended whose final takes its place. -/
theorem Law.accounts_of_left {m m' : Midway} {t : State} (h : Law.accounts m s) {o : Owner} {i : Fin 4}
    {r : Completion} (on : s.reports o = some i) (reports : ∀ x, t.reports x = if x = o then none else s.reports x)
    (ring : ∀ j, t.ring j = if i = j then
      { s.ring i with staged := (s.ring i).staged ++ [r], owed := (s.ring i).owed - 1 } else s.ring j)
    (place : m'.place = m.place) : Law.accounts m' t := by
  refine Law.accounts_of_final h ring fun j => ?_
  have held : m'.held j = m.held j := by rw [Midway.held, Midway.held, place]
  have update := State.worksOn_update (s := s) (t := t) (o := o) (fun x hx => by rw [reports, if_neg hx]) j
  rw [on, reports, if_pos rfl] at update
  simp only [reduceCtorEq, if_false] at update
  omega

/-- The record that is processed has been admitted as a work, which takes over its place. -/
theorem Law.accounts_of_joined {m' : Midway} {t : State} {i : Fin 4} (h : Law.accounts (.holding i) s) {o : Owner}
    (off : s.reports o = none) (reports : ∀ x, t.reports x = if x = o then some i else s.reports x)
    (ring : ∀ j, t.ring j = s.ring j) (place : m'.place = none) : Law.accounts m' t := by
  refine Law.accounts_of_same h (fun j => by rw [ring]; exact ⟨rfl, rfl, rfl⟩) fun j => ?_
  have update := State.worksOn_update (s := s) (t := t) (o := o) (fun x hx => by rw [reports, if_neg hx]) j
  rw [off, reports, if_pos rfl] at update
  simp only [reduceCtorEq, if_false] at update
  have none : m'.held j = 0 := by rw [Midway.held, place]; rfl
  have one : (Midway.holding i).held j = if some i = some j then 1 else 0 := rfl
  omega

/-- The rings serve, so CR0 is in service. -/
theorem State.serving_active (rings : s.RingsSound) (serving : s.Serving) : (s.ring 0).state = .active := by
  obtain ⟨-, first, none⟩ := rings
  obtain on | ⟨k, active⟩ := serving
  · exact first on
  · refine first ?_
    by_contra off
    have undefined := none (by cases d : s.device <;> simp_all) k
    rw [active] at undefined
    cases undefined

theorem Law.accounts_reserve (h : Law.accounts .rest s) {i : Fin 4} (place : (s.ring i).hasPlace = true)
    (active : (s.ring i).state = .active) : Law.accounts (.holding i) (s.reserve i) := by
  obtain ⟨works, -, -⟩ := h i
  have room : (s.ring i).account < Config.accountPlaces := by simpa [Ring.hasPlace] using place
  refine Law.accounts_setRing h (fun j other => ?_) ?_ ?_ fun undefined => ?_
  · exact if_neg fun e => other (Option.some.inj e).symm
  · have one : (Midway.holding i).held i = 1 := if_pos rfl
    have none : Midway.rest.held i = 0 := rfl
    change (s.ring i).owed + 1 = _
    omega
  · simp only [Ring.account] at room ⊢
    omega
  · rw [show (s.ring i).state = .undefined from undefined] at active
    cases active

theorem Law.accounts_answer {i : Fin 4} (h : Law.accounts (.holding i) s) (r : Completion) :
    Law.accounts .rest (s.stageFinal i r) := by
  refine Law.accounts_of_final h (fun j => State.ring_setRing ..) fun j => ?_
  have works : (s.stageFinal i r).worksOn j = s.worksOn j := State.worksOn_congr (fun _ => rfl) j
  rw [works]
  rfl

theorem Law.accounts_stageFree {m : Midway} (h : Law.accounts m s) {i : Fin 16} {c : Capture} (r : Completion)
    (live : s.capture i = some c) (place : (s.ring c.ring).hasPlace = true) :
    Law.accounts m (s.stageFree c.ring r) := by
  obtain ⟨works, -, undefined⟩ := h c.ring
  have on : s.reports (.capture i) = some c.ring := by rw [State.reports, live]; rfl
  have some := State.worksOn_pos on
  have room : (s.ring c.ring).account < Config.accountPlaces := by simpa [Ring.hasPlace] using place
  refine Law.accounts_setRing h (fun _ _ => rfl) works ?_ fun state => ?_
  · simp only [Ring.account, List.length_append, List.length_singleton] at room ⊢
    omega
  · have empty := undefined state
    simp only [Ring.account] at empty
    omega

theorem Law.accounts_easeRing {m : Midway} (h : Law.accounts m s) {i : Fin 4} {r : Ring} (eased : (s.ring i).Eased r) :
    Law.accounts m (s.setRing i r) := by
  obtain ⟨works, most, undefined⟩ := h i
  have less : r.account ≤ (s.ring i).account := by
    simp only [Ring.account, eased.owed]
    exact Nat.add_le_add_right eased.staged _
  refine Law.accounts_setRing h (fun _ _ => rfl) (eased.owed.trans works) (less.trans most) fun state => ?_
  exact Nat.le_zero.mp (less.trans (Nat.le_of_eq (undefined (eased.state.symm.trans state))))

theorem Law.accounts_undefineRing {m : Midway} (h : Law.accounts m s) {k : Fin 4}
    (spare : (s.ring k).state = .undefined ∨ (s.ring k).account = 0) :
    Law.accounts m (s.setRing k Ring.undefined) := by
  obtain ⟨works, -, undefined⟩ := h k
  have empty : (s.ring k).account = 0 := spare.elim undefined id
  refine Law.accounts_setRing h (fun _ _ => rfl) ?_ (Nat.zero_le _) fun _ => rfl
  simp only [Ring.account] at empty
  change 0 = _
  omega

/-- A definition keeps the ring's account, which an UNDEFINED ring does not have (R164, R166). -/
theorem Law.accounts_redefineRing {m : Midway} (h : Law.accounts m s) (k : Fin 4) (base : HostAddr) (size : Nat)
    (level : Fin 4) (threshold holdoff : Nat) :
    Law.accounts m (s.setRing k ((s.ring k).kept.define base size level threshold holdoff)) := by
  obtain ⟨works, most, undefined⟩ := h k
  have kept : (s.ring k).kept.staged.length = (s.ring k).staged.length ∧ (s.ring k).kept.owed = (s.ring k).owed := by
    unfold Ring.kept
    split
    · rename_i state
      have empty := undefined state
      simp only [Ring.account] at empty
      exact ⟨(Nat.eq_zero_of_add_eq_zero_right empty).symm, (Nat.eq_zero_of_add_eq_zero_left empty).symm⟩
    · exact ⟨rfl, rfl⟩
  refine Law.accounts_setRing h (fun _ _ => rfl) (kept.2.trans works) ?_ nofun
  change (s.ring k).kept.staged.length + (s.ring k).kept.owed ≤ _
  rw [kept.1, kept.2]
  exact most

/-- Where no work is live and no record processed, rings that hold nothing are accounted for. -/
theorem Law.accounts_of_empty (none : ∀ o, s.live o = false) (rings : ∀ i, (s.ring i).account = 0) :
    Law.accounts .rest s := by
  intro i
  have empty := rings i
  refine ⟨?_, by rw [empty]; exact Nat.zero_le _, fun _ => empty⟩
  rw [State.worksOn_eq_zero none]
  simp only [Ring.account] at empty
  change _ = 0 + 0
  omega

theorem Moves.accounts : Moves (Law.works.and .rings) .accounts where
  quiet q _ _ h := by rw [q]; exact h
  settle _ _ _ _ h := h
  unpop _ _ _ h := h
  closeTrain {m s i t} st r live _ _ h :=
    Law.accounts_of_left h (by rw [State.reports, live]; rfl) (endedTrain_reports s i t st r)
      (fun j => endedTrain_ring s i j t st r) (by simp only [Midway.closed, Midway.forget])
  closeCapture {m s i c} st live _ _ h :=
    Law.accounts_of_left h (by rw [State.reports, live]; rfl) (closeCapture_reports s i c st)
      (fun j => State.ring_setRing (s := s) ..) (by simp only [Midway.closed, Midway.forget])
  endFence {m s f} n k st waits _ _ h := by
    have on : s.reports .fence = some f.ring := by rw [State.reports, waits]; rfl
    refine Law.accounts_of_left h on (fun x => ?_) (fun j => State.ring_setRing (s := s) ..)
      (by simp only [Midway.forget])
    cases x with
    | fence => rfl
    | train j => rfl
    | capture j => rfl
  lowerCount {m s f} waits _ _ _ _ h :=
    Law.accounts_of_same h (fun _ => ⟨rfl, rfl, rfl⟩) fun j =>
      congrArg (· + m.held j) (State.worksOn_congr (fetch_reports (by rw [waits]; rfl)) j)
  reportNone _ _ _ _ h := h
  retrain {m s i u t} live same _ _ _ h :=
    Law.accounts_of_same h (fun _ => ⟨rfl, rfl, rfl⟩) fun j =>
      congrArg (· + m.held j) (State.worksOn_congr (setTrain_reports live same.ring) j)
  wake {m s i u t} _ live same _ _ _ _ h :=
    Law.accounts_of_same h (fun _ => ⟨rfl, rfl, rfl⟩) fun j =>
      congrArg (· + m.held j) (State.worksOn_congr (setTrain_reports live same.ring) j)
  insertEntry _ _ _ _ _ _ h := by rw [State.insert_eq]; exact h
  recapture {m s i c d} live _ ring _ _ h :=
    Law.accounts_of_same h (fun _ => ⟨rfl, rfl, rfl⟩) fun j =>
      congrArg (· + m.held j) (State.worksOn_congr (setCapture_reports live ring) j)
  touchLine _ _ _ h := h
  easeRing eased _ _ h := Law.accounts_easeRing h eased
  faultRing {m s i} _ _ _ _ h := by
    obtain ⟨works, most, -⟩ := h i
    exact Law.accounts_setRing h (fun _ _ => rfl) works most nofun
  stageFree r live place _ _ h := Law.accounts_stageFree h r live place
  reserve place active i _ h := by
    refine Law.accounts_reserve h place ?_
    obtain active | ⟨rfl, serving⟩ := active
    · exact active
    · exact State.serving_active i.2 serving
  answer r _ _ h := Law.accounts_answer h r
  undefineRing _ spare _ _ h := Law.accounts_undefineRing h spare
  redefineRing base size level threshold holdoff _ _ _ _ _ h :=
    Law.accounts_redefineRing h _ base size level threshold holdoff
  enrollTrain {s i k u} e _ _ h := by
    refine Law.accounts_of_joined h (o := .train k) (by rw [State.reports, e.free]; rfl) (fun x => ?_) (fun _ => rfl)
      (by split <;> rfl)
    cases x with
    | train j =>
      have slot : (s.enrollTrain k u).train j = if k = j then some u else s.train j :=
        State.train_setTrain (s := s) ..
      rw [State.reports, slot, ← e.ring]
      by_cases same : k = j
      · simp [same]
      · simp [same, Ne.symm same, State.reports]
    | capture j => rfl
    | fence => rfl
  enrollCapture {s i k c} e _ _ h := by
    refine Law.accounts_of_joined h (o := .capture k) (by rw [State.reports, e.free]; rfl) (fun x => ?_)
      (fun _ => rfl) rfl
    cases x with
    | capture j =>
      have slot : (s.enrollCapture k c).capture j = if k = j then some c else s.capture j :=
        State.capture_setCapture (s := s) ..
      rw [State.reports, slot, ← e.ring]
      by_cases same : k = j
      · simp [same]
      · simp [same, Ne.symm same, State.reports]
    | train j => rfl
    | fence => rfl
  enrollFence {s i} tag _ idle _ _ _ h := by
    refine Law.accounts_of_joined h (o := .fence) (by rw [State.reports, idle]; rfl) (fun x => ?_) (fun _ => rfl) rfl
    cases x with
    | fence => rfl
    | train j => rfl
    | capture j => rfl
  adjust {m s} v _ _ _ _ _ h := by
    refine Law.accounts_of_same h (fun j => ?_) fun _ => rfl
    rw [State.ring_adjust]
    obtain ⟨state, -⟩ := (s.ring j).shiftTimer_tables (v - s.deviceTime)
    obtain ⟨staged, owed⟩ := (s.ring j).shiftTimer_account (v - s.deviceTime)
    exact ⟨state, staged, owed⟩
  refetch {m s f} free free' _ _ _ h :=
    Law.accounts_of_same h (fun _ => ⟨rfl, rfl, rfl⟩) fun j =>
      congrArg (· + m.held j) (State.worksOn_congr (fetch_reports (by rw [free, free'])) j)
  advanceHead {m s} _ free _ _ h :=
    Law.accounts_of_same h (fun _ => ⟨rfl, rfl, rfl⟩) fun j =>
      congrArg (· + m.held j) (State.worksOn_congr (fetch_reports (s := s) (f := .idle) (by rw [free]; rfl)) j)
  setTail _ _ _ h := h
  discardHeld _ _ h := h
  clear c _ _ _ :=
    Law.accounts_of_empty (State.live_eq_false c.trains c.captures (by rw [c.fetch]; rfl)) fun i => by
      rw [c.rings]
      rfl
  toOff {s} c n d quiescing i _ _ := by
    obtain ⟨trains, captures, -⟩ := State.noWork_iff.mpr (i.1.2.2.2 rfl (by simp [quiescing]))
    refine Law.accounts_of_empty (State.live_eq_false (s := s.toOff c n d) trains captures rfl) fun k => ?_
    have ring : (s.toOff c n d).ring k = Ring.undefined := Vector.getElem_replicate ..
    rw [ring]
    rfl
  enterRunning {s} off _ i _ h := by
    have none := i.1.2.2.2 rfl (by simp [off])
    refine Law.accounts_of_empty (s := s.enterRunning) none fun k => ?_
    rw [State.ring_enterRunning]
    split
    · rfl
    · exact (h k).2.2 (i.2.2.2 (.inl off) k)
  configure _ _ _ _ _ _ h := h
  beginSweep _ _ _ _ h := h

theorem OuterMoves.accounts : OuterMoves (Law.works.and .rings) .accounts where
  rehost _ _ _ _ h := h
  pop _ _ _ h := h
  count {s} _ _ _ _ h :=
    Law.accounts_of_same h (fun _ => ⟨rfl, rfl, rfl⟩) fun j =>
      congrArg (· + Midway.rest.held j) (State.worksOn_congr (fun x => by
        cases x with
        | fence => exact congrArg (Option.map (·.ring)) (Fetch.advance_waiting s.fetch)
        | train i => rfl
        | capture i => rfl) j)
  holdReset _ _ _ h := h
  releaseReset _ _ _ h := h

end Sys2Proof.Machine
end

section
/-! PROOFS. The calendar's entries (sections 1.6 and 3.4): every move keeps a train's entries those of its state, and
no two entries of one work. -/

namespace Sys2Proof.Machine

set_option Elab.async false

variable {s : State}

/-- The train in the slot is ARMED, RUNNING or STOPPING, and so to have an entry (R49). -/
def State.Timed (s : State) (i : Fin 32) : Prop := ∃ u, s.train i = some u ∧ u.state ≠ .waiting

/-- The owners of the entries, in calendar order. -/
def State.owners (s : State) : List Owner := s.calendar.map (·.owner)

/-- No work has two entries, and a train that is to have one has it; but one whose entry has been delivered or is
still to be made has none, and is to have one if it is a train. -/
def Law.entries : Law := fun m s =>
  (∀ i t, s.train i = some t → t.SegmentsSound) ∧ s.owners.Nodup
    ∧ (∀ i, Owner.train i ∈ s.owners ↔ s.Timed i ∧ m.popped ≠ some (.train i))
    ∧ (∀ o, m.popped = some o → o ∉ s.owners) ∧ ∀ i, m.popped = some (.train i) → s.Timed i

theorem State.entriesOf_eq (once : s.owners.Nodup) (o : Owner) :
    s.entriesOf o = if o ∈ s.owners then 1 else 0 := by
  rw [← once.count, State.owners, List.count, List.countP_map]
  refine List.countP_congr fun e _ => ?_
  simp

theorem State.entryCount_eq (i : Fin 32) (P : Prop) [Decidable P] (h : P ↔ s.Timed i) :
    Train.entryCount (s.train i) = if P then 1 else 0 := by
  unfold State.Timed at h
  unfold Train.entryCount
  split
  · rename_i free
    rw [if_neg fun p => ?_]
    obtain ⟨u, live, -⟩ := h.mp p
    rw [free] at live
    cases live
  · rename_i u live
    by_cases waits : u.state = .waiting
    · rw [if_pos waits, if_neg fun p => ?_]
      obtain ⟨v, live', awake⟩ := h.mp p
      rw [live] at live'
      exact awake (Option.some.inj live' ▸ waits)
    · rw [if_neg waits, if_pos (h.mpr ⟨u, live, waits⟩)]

theorem Law.entries_rest : Law.entries .rest s ↔ s.EntriesSound := by
  constructor
  · rintro ⟨sound, once, timed, -⟩
    refine ⟨fun i => ⟨fun t live => sound i t live, ?_⟩, once⟩
    rw [State.entriesOf_eq once]
    exact (State.entryCount_eq i _ ((timed i).trans (and_iff_left (Option.some_ne_none _).symm))).symm
  · rintro ⟨each, once⟩
    refine ⟨fun i t live => (each i).1 t live, once, fun i => ?_, nofun, nofun⟩
    have count := (each i).2
    classical
    rw [State.entriesOf_eq once, State.entryCount_eq i (s.Timed i) Iff.rfl] at count
    refine Iff.trans ?_ (and_iff_left (Option.some_ne_none _).symm).symm
    by_cases mem : Owner.train i ∈ s.owners <;> by_cases time : s.Timed i <;> simp_all

/-- A work leaves with its entry (R17). -/
theorem Law.entries_of_left {m m' : Midway} {t : State} (h : Law.entries m s) (o : Owner)
    (calendar : t.calendar = s.calendar.filter fun e => !decide (e.owner = o))
    (train : ∀ j, t.train j = if .train j = o then none else s.train j)
    (popped : m'.popped = if m.popped = some o then none else m.popped) : Law.entries m' t := by
  obtain ⟨sound, once, timed, out, acts⟩ := h
  have owners : t.owners = s.owners.filter fun w => !decide (w = o) := by
    rw [State.owners, calendar, State.owners, List.filter_map]
    rfl
  have mem (x : Owner) : x ∈ t.owners ↔ x ∈ s.owners ∧ x ≠ o := by
    rw [owners, List.mem_filter]
    simp
  have kept (x : Owner) : m'.popped = some x ↔ m.popped = some x ∧ x ≠ o := by
    rw [popped]
    split
    · rename_i self
      simp only [reduceCtorEq, false_iff, not_and, not_not]
      exact fun same => Option.some.inj (same.symm.trans self)
    · rename_i other
      exact ⟨fun same => ⟨same, fun e => other (e ▸ same)⟩, And.left⟩
  have time (j : Fin 32) : t.Timed j ↔ s.Timed j ∧ Owner.train j ≠ o := by
    unfold State.Timed
    rw [train]
    by_cases self : Owner.train j = o <;> simp [self]
  refine ⟨fun j u live => ?_, owners ▸ once.filter _, fun j => ?_, fun x same => ?_, fun j same => ?_⟩
  · rw [train] at live
    split at live
    · cases live
    · exact sound j u live
  · have still := kept (.train j)
    rw [mem, timed, time]
    tauto
  · obtain ⟨was, -⟩ := (kept x).mp same
    exact fun inside => out x was ((mem x).mp inside).1
  · obtain ⟨was, other⟩ := (kept _).mp same
    exact (time j).mpr ⟨acts j was, other⟩

/-- The trains are as they were but for a change that leaves each to have an entry or not, as it was. -/
theorem Law.entries_of_same {m m' : Midway} {t : State} (h : Law.entries m s)
    (sound : ∀ i u, t.train i = some u → u.SegmentsSound) (time : ∀ j, t.Timed j ↔ s.Timed j)
    (calendar : t.calendar = s.calendar) (popped : m'.popped = m.popped) : Law.entries m' t := by
  obtain ⟨-, once, timed, out, acts⟩ := h
  unfold Law.entries State.owners
  simp only [calendar, popped, time]
  exact ⟨sound, once, timed, out, acts⟩

/-- An entry is awaited no more, and none is owed to a train. -/
theorem Law.entries_acted {m m' : Midway} (h : Law.entries m s) (other : ∀ k, m.popped ≠ some (.train k))
    (popped : m'.popped = none) : Law.entries m' s := by
  obtain ⟨sound, once, timed, -, -⟩ := h
  unfold Law.entries
  rw [popped]
  refine ⟨sound, once, fun i => ?_, nofun, nofun⟩
  rw [timed, and_iff_left (other i), and_iff_left (Option.some_ne_none _).symm]

theorem Train.Same.sound {u t : Train} (same : u.Same t) (sound : u.SegmentsSound) : t.SegmentsSound := by
  unfold Train.SegmentsSound
  rw [same.segments, same.start]
  exact sound

theorem setTrain_sound {m : Midway} (h : Law.entries m s) {i : Fin 32} {u t : Train} (live : s.train i = some u)
    (same : u.Same t) : ∀ j v, (s.setTrain i (some t)).train j = some v → v.SegmentsSound := by
  intro j v live'
  rw [State.train_setTrain] at live'
  split at live'
  · exact Option.some.inj live' ▸ same.sound (h.1 i u live)
  · exact h.1 j v live'

theorem timed_of_train {i : Fin 32} {u : Train} (live : s.train i = some u) : s.Timed i ↔ u.state ≠ .waiting := by
  constructor
  · rintro ⟨v, live', awake⟩
    exact Option.some.inj (live'.symm.trans live) ▸ awake
  · exact fun awake => ⟨u, live, awake⟩

theorem timed_setTrain (i j : Fin 32) (t : Train) :
    (s.setTrain i (some t)).Timed j ↔ if i = j then t.state ≠ .waiting else s.Timed j := by
  by_cases self : i = j
  · subst self
    rw [if_pos rfl, timed_of_train (State.train_setTrain_self ..)]
  · rw [if_neg self, State.Timed, State.train_setTrain_of_ne s i j _ self]
    rfl

theorem Law.entries_retrain {m : Midway} (h : Law.entries m s) {i : Fin 32} {u t : Train} (live : s.train i = some u)
    (same : u.Same t)
    (waits : (t.state = .waiting ↔ u.state = .waiting) ∨ m.popped = some (.train i) ∧ t.state ≠ .waiting) :
    Law.entries m (s.setTrain i (some t)) := by
  refine Law.entries_of_same h (setTrain_sound h live same) (fun j => ?_) rfl rfl
  rw [timed_setTrain]
  split
  · rename_i self
    subst self
    obtain iff | ⟨popped, awake⟩ := waits
    · rw [timed_of_train live, Ne, iff]
    · exact iff_of_true awake (h.2.2.2.2 i popped)
  · exact Iff.rfl

/-- A waiting train is woken, its entry to be made. -/
theorem Law.entries_wake {m : Midway} (h : Law.entries m s) (idle : m.popped = none) {i : Fin 32} {u t : Train}
    (live : s.train i = some u) (same : u.Same t) (awake : t.state ≠ .waiting) (waits : u.state = .waiting) :
    Law.entries { m with popped := some (.train i) } (s.setTrain i (some t)) := by
  obtain ⟨sound, once, timed, -, -⟩ := h
  have before : ¬s.Timed i := by
    rw [timed_of_train live]
    exact not_not.mpr waits
  have out : Owner.train i ∉ s.owners := fun mem => before ((timed i).mp mem).1
  refine ⟨setTrain_sound ⟨sound, once, timed, by rw [idle]; nofun, by rw [idle]; nofun⟩ live same, once, fun j => ?_,
    fun o popped => ?_, fun j popped => ?_⟩
  · rw [timed_setTrain]
    change Owner.train j ∈ s.owners ↔ _
    by_cases self : i = j
    · subst self
      simp [out]
    · rw [if_neg self, timed, idle, Ne, Ne, Option.some.injEq, Owner.train.injEq]
      simp [self]
  · exact Option.some.inj popped ▸ out
  · rw [timed_setTrain, if_pos (Owner.train.inj (Option.some.inj popped))]
    exact awake

/-- The entry of a work is made, if its time lies ahead, as it does for a train. -/
theorem Law.entries_insert {m m' : Midway} (h : Law.entries m s) {o : Owner} {a : Action} {due : Time}
    (popped : m.popped = some o)
    (future : ∀ k u, o = .train k → s.train k = some u → u.SegmentsSound → isFuture s.deviceTime due = true)
    (rested : m'.popped = none) : Law.entries m' (s.insert o a due) := by
  obtain ⟨ahead, e⟩ | ⟨past, e⟩ := s.insert_cases o a due
  · rw [e]
    obtain ⟨sound, once, timed, out, acts⟩ := h
    have perm : List.Perm (State.owners { s with
        calendar := placeEntry s.standsBefore { due := due, owner := o, action := a } s.calendar })
        (o :: s.owners) := (placeEntry_perm s.standsBefore _ s.calendar).map fun e : Entry => e.owner
    unfold Law.entries
    rw [rested]
    refine ⟨sound, perm.nodup_iff.mpr (List.nodup_cons.mpr ⟨out o popped, once⟩), fun i => ?_, nofun, nofun⟩
    rw [perm.mem_iff, List.mem_cons, timed, popped, Ne, Option.some.injEq,
      and_iff_left (Option.some_ne_none _).symm]
    change _ ↔ s.Timed i
    constructor
    · rintro (rfl | ⟨time, -⟩)
      · exact acts i popped
      · exact time
    · exact fun time => (eq_or_ne (Owner.train i) o).imp_right fun other => ⟨time, Ne.symm other⟩
  · rw [e]
    refine Law.entries_acted h (fun k self => ?_) rested
    obtain ⟨-, -, -, -, acts⟩ := id h
    obtain ⟨u, live, -⟩ := acts k self
    have ahead := future k u (Option.some.inj (popped.symm.trans self)) live (h.1 k u live)
    rw [past] at ahead
    cases ahead

/-- A work joins that has no entry, one to be made if it is not a waiting train. -/
theorem Law.entries_of_joined {m : Midway} (h : Law.entries m s) (idle : m.popped = none) {m' : Midway} {t : State}
    (calendar : t.calendar = s.calendar) (sound : ∀ i u, t.train i = some u → u.SegmentsSound)
    (out : ∀ o, m'.popped = some o → o ∉ s.owners)
    (time : ∀ i, t.Timed i ↔ s.Timed i ∨ m'.popped = some (.train i)) : Law.entries m' t := by
  obtain ⟨-, once, timed, -, -⟩ := h
  have owners : t.owners = s.owners := by rw [State.owners, calendar]; rfl
  unfold Law.entries
  rw [owners]
  refine ⟨sound, once, fun i => ?_, out, fun i popped => (time i).mpr (.inr popped)⟩
  rw [time, timed, idle, and_iff_left (Option.some_ne_none _).symm]
  constructor
  · intro was
    refine ⟨.inl was, fun popped => out _ popped ?_⟩
    rw [timed, idle]
    exact ⟨was, (Option.some_ne_none _).symm⟩
  · rintro ⟨was | popped, other⟩
    · exact was
    · exact absurd popped other

theorem Law.works_not_owner {m : Midway} (works : Law.works m s) {o : Owner} (dead : s.live o = false) :
    o ∉ s.owners := by
  intro mem
  obtain ⟨e, he, rfl⟩ := List.mem_map.mp mem
  rw [works.2.2.1 e he] at dead
  cases dead

theorem Law.entries_of_empty {m : Midway} (trains : ∀ i, s.train i = none) (calendar : s.calendar = [])
    (idle : m.popped = none) : Law.entries m s := by
  unfold Law.entries State.owners State.Timed
  simp [trains, calendar, idle]

theorem Moves.entries : Moves .works .entries where
  quiet q _ _ h := by rw [q]; exact h
  settle _ _ _ _ h := h
  unpop {m s} unsound _ _ h := by
    refine Law.entries_acted h (fun k popped => ?_) rfl
    obtain ⟨u, live, -⟩ := h.2.2.2.2 k popped
    exact unsound k u popped live (h.1 k u live)
  closeTrain {m s i t} st r live _ _ h := by
    refine Law.entries_of_left h (.train i) rfl (fun j => ?_) (by simp only [Midway.closed, Midway.forget])
    rw [endedTrain_train]
    simp only [Owner.train.injEq, eq_comm]
  closeCapture {m s i c} st live _ _ h :=
    Law.entries_of_left h (.capture i) rfl (fun j => (if_neg nofun).symm) (by simp only [Midway.closed, Midway.forget])
  endFence {m s f} n k st _ _ _ h :=
    Law.entries_of_left h .fence rfl (fun j => (if_neg nofun).symm) (by simp only [Midway.forget])
  lowerCount _ _ _ _ _ h := h
  reportNone _ _ _ _ h := h
  retrain live same waits _ _ h := Law.entries_retrain h live same waits
  wake idle live same awake waits works _ h := Law.entries_wake h idle live same awake (waits works.1)
  insertEntry popped _ _ future _ _ h := Law.entries_insert h popped future rfl
  recapture _ _ _ _ _ h := h
  touchLine _ _ _ h := h
  easeRing _ _ _ h := h
  faultRing _ _ _ _ h := h
  stageFree _ _ _ _ _ h := h
  reserve _ _ _ _ h := h
  answer _ _ _ h := h
  undefineRing _ _ _ _ h := h
  redefineRing _ _ _ _ _ _ _ _ _ _ h := h
  enrollTrain {s i k u} e works _ h := by
    have slot (j : Fin 32) : (s.enrollTrain k u).train j = if k = j then some u else s.train j :=
      State.train_setTrain (s := s) ..
    have before : ¬s.Timed k := by
      rintro ⟨v, live, -⟩
      rw [e.free] at live
      cases live
    refine Law.entries_of_joined h rfl rfl (fun j v live => ?_) (fun o popped => ?_) fun j => ?_
    · rw [slot] at live
      split at live
      · exact Option.some.inj live ▸ e.segments
      · exact h.1 j v live
    · split at popped
      · cases popped
      · obtain rfl := Option.some.inj popped
        exact Law.works_not_owner works (by rw [State.live, e.free]; rfl)
    · change (∃ v, (s.enrollTrain k u).train j = some v ∧ v.state ≠ .waiting) ↔ _
      rw [slot]
      by_cases self : k = j
      · subst self
        by_cases waits : u.state = .waiting <;> simp [waits, before, Midway.rest, Midway.owing]
      · have other : (if u.state = .waiting then Midway.rest else .owing (.train k)).popped ≠ some (.train j) := by
          split
          · nofun
          · exact fun popped => self (Owner.train.inj (Option.some.inj popped))
        rw [if_neg self, or_iff_left other]
        exact Iff.rfl
  enrollCapture {s i k c} e works _ h := by
    refine Law.entries_of_joined h rfl rfl (fun j v live => h.1 j v live) (fun o popped => ?_) fun j => ?_
    · obtain rfl := Option.some.inj popped
      exact Law.works_not_owner works (by rw [State.live, e.free]; rfl)
    · exact (or_iff_left nofun).symm
  enrollFence {s i} tag _ idle _ works _ h := by
    refine Law.entries_of_joined h rfl rfl (fun j v live => h.1 j v live) (fun o popped => ?_) fun j => ?_
    · obtain rfl := Option.some.inj popped
      exact Law.works_not_owner works (by rw [State.live, idle]; rfl)
    · exact (or_iff_left nofun).symm
  adjust _ _ _ _ _ _ h := h
  refetch _ _ _ _ _ h := h
  advanceHead _ _ _ _ h := h
  setTail _ _ _ h := h
  discardHeld _ _ h := h
  clear c _ _ _ := Law.entries_of_empty c.trains c.calendar rfl
  toOff _ _ _ _ _ _ h := h
  enterRunning _ _ _ _ h := h
  configure _ _ _ _ _ _ h := h
  beginSweep _ _ _ _ h := h

theorem OuterMoves.entries : OuterMoves .works .entries where
  rehost _ _ _ _ h := h
  pop {s o a} due _ _ h := by
    obtain ⟨rest, calendar, -⟩ := (s.dueEntry_eq_some _).mp due
    obtain ⟨sound, once, timed, -, -⟩ := h
    have owners : s.owners = o :: s.popEntry.owners := by
      rw [State.owners, State.owners, State.popEntry, calendar]
      rfl
    rw [owners, List.nodup_cons] at once
    simp only [owners, List.mem_cons] at timed
    refine ⟨sound, once.2, fun i => ?_, fun x popped => Option.some.inj popped ▸ once.1, fun i popped => ?_⟩
    · have before := (timed i).trans (and_iff_left (Option.some_ne_none _).symm)
      change _ ↔ s.Timed i ∧ some o ≠ _
      by_cases self : o = .train i
      · subst self
        simp [once.1]
      · rw [← before, or_iff_right (Ne.symm self), and_iff_left fun e => self (Option.some.inj e)]
    · have before := (timed i).trans (and_iff_left (Option.some_ne_none _).symm)
      exact before.mp (.inl (Option.some.inj popped).symm)
  count _ _ _ _ h := h
  holdReset _ _ _ h := h
  releaseReset _ _ _ h := h

end Sys2Proof.Machine
end

section
/-! PROOFS. Chains of waiters (R97): every move keeps each train that waits on a train's end behind a live and older
one, but for the waiters of a train that has just ended. -/

namespace Sys2Proof.Machine

set_option Elab.async false

variable {s : State}

/-- Where `c` holds, a train that waits on a train's end names one that has just ended or a live and older one. -/
def Law.chains (c : Prop) : Law := fun m s => c → ∀ j u, s.train j = some u → u.state = .waiting →
  ∀ g o, u.start = .afterEnd g o →
    g ∈ m.lost ∨ ∃ i t, s.train i = some t ∧ t.tag = g ∧ s.rank (.train i) < s.rank (.train j)

theorem Law.chains_rest {c : Prop} : Law.chains c .rest s ↔ (c → s.ChainsSound) := by
  refine forall_congr' fun _ => forall₂_congr fun j u => forall₂_congr fun _ _ => forall₂_congr fun g o =>
    imp_congr_right fun _ => ?_
  exact or_iff_right (List.not_mem_nil)

/-- No train starts to wait, and each that another waits on has its tag still, and its place before it; or it has just
ended. -/
theorem Law.chains_of {c : Prop} {m m' : Midway} {t : State} (h : Law.chains c m s)
    (waits : ∀ j u, t.train j = some u → u.state = .waiting →
      ∃ v, s.train j = some v ∧ v.state = .waiting ∧ v.start = u.start)
    (lost : ∀ g ∈ m.lost, g ∈ m'.lost)
    (older : ∀ i v j, s.train i = some v → (t.train j).isSome = true → s.rank (.train i) < s.rank (.train j) →
      v.tag ∈ m'.lost ∨ ∃ v', t.train i = some v' ∧ v'.tag = v.tag ∧ t.rank (.train i) < t.rank (.train j)) :
    Law.chains c m' t := by
  intro hc j u live waiting g o start
  obtain ⟨v, live', waiting', start'⟩ := waits j u live waiting
  obtain gone | ⟨i, w, there, rfl, rank⟩ := h hc j v live' waiting' g o (start'.trans start)
  · exact .inl (lost g gone)
  · obtain gone | ⟨w', there', tag, rank'⟩ := older i w j there (by rw [live]; rfl) rank
    · exact .inl gone
    · exact .inr ⟨i, w', there', tag, rank'⟩

theorem idxOf_filter_lt {α : Type} [DecidableEq α] {p : α → Bool} {a b : α} (pa : p a = true) (pb : p b = true)
    {l : List α} (lt : l.idxOf a < l.idxOf b) : (l.filter p).idxOf a < (l.filter p).idxOf b := by
  induction l with
  | nil => exact lt
  | cons c l ih =>
    have other : c ≠ b := by
      rintro rfl
      rw [List.idxOf_cons_self] at lt
      cases lt
    by_cases first : c = a
    · subst first
      rw [List.filter_cons_of_pos pa, List.idxOf_cons_self, List.idxOf_cons_ne _ other]
      exact Nat.succ_pos _
    · rw [List.idxOf_cons_ne _ first, List.idxOf_cons_ne _ other] at lt
      have tail := ih (Nat.lt_of_succ_lt_succ lt)
      by_cases stays : p c = true
      · rw [List.filter_cons_of_pos stays, List.idxOf_cons_ne _ first, List.idxOf_cons_ne _ other]
        exact Nat.succ_lt_succ tail
      · rwa [List.filter_cons_of_neg stays]

/-- A work that leaves moves no two trains past each other (R17). -/
theorem State.rank_of_left {t : State} {o : Owner}
    (admission : t.admission = s.admission.filter fun w => !decide (w = o)) {x y : Owner} (hx : x ≠ o) (hy : y ≠ o)
    (lt : s.rank x < s.rank y) : t.rank x < t.rank y := by
  rw [State.rank, State.rank, admission]
  exact idxOf_filter_lt (p := fun w => !decide (w = o)) (by simp [hx]) (by simp [hy]) lt

/-- A work other than a train leaves (R17). -/
theorem Law.chains_of_left {c : Prop} {m m' : Midway} {t : State} (h : Law.chains c m s) {o : Owner}
    (other : ∀ j, Owner.train j ≠ o) (train : ∀ j, t.train j = s.train j)
    (admission : t.admission = s.admission.filter fun w => !decide (w = o)) (lost : m'.lost = m.lost) :
    Law.chains c m' t := by
  refine Law.chains_of h (fun j u live waiting => ⟨u, train j ▸ live, waiting, rfl⟩) (fun g mem => lost ▸ mem)
    fun i v j live _ rank => .inr ⟨v, (train i).trans live, rfl, ?_⟩
  exact State.rank_of_left admission (other i) (other j) rank

/-- A train ends, and its waiters are to be seen to (R17). -/
theorem Law.chains_endedTrain {c : Prop} {m : Midway} (h : Law.chains c m s) {i : Fin 32} {t : Train}
    (live : s.train i = some t) (st : Status) (r : Completion) :
    Law.chains c (m.closed (.train i) [t.tag]) (endedTrain s i t st r) := by
  refine Law.chains_of h (fun j u live' waiting => ?_) (fun g mem => List.mem_cons_of_mem _ mem)
    fun p v j there some rank => ?_
  · rw [endedTrain_train] at live'
    split at live'
    · cases live'
    · exact ⟨u, live', waiting, rfl⟩
  · have stays : i ≠ j := by
      rintro rfl
      rw [endedTrain_train, if_pos rfl] at some
      cases some
    by_cases self : i = p
    · subst self
      obtain rfl := Option.some.inj (live.symm.trans there)
      exact .inl List.mem_cons_self
    · refine .inr ⟨v, by rw [endedTrain_train, if_neg self, there], rfl, ?_⟩
      refine State.rank_of_left (o := .train i) rfl ?_ ?_ rank
      · exact fun e => self (Owner.train.inj e).symm
      · exact fun e => stays (Owner.train.inj e).symm

/-- A train on another stretch of its way waits only if it waited. -/
theorem Law.chains_setTrain {c : Prop} {m m' : Midway} (h : Law.chains c m s) {i : Fin 32} {u t : Train}
    (live : s.train i = some u) (same : u.Same t) (waits : t.state = .waiting → u.state = .waiting)
    (lost : m'.lost = m.lost) : Law.chains c m' (s.setTrain i (some t)) := by
  refine Law.chains_of h (fun j v live' waiting => ?_) (fun g mem => lost ▸ mem) fun p v j there some rank => .inr ?_
  · rw [State.train_setTrain] at live'
    split at live'
    · rename_i self
      subst self
      obtain rfl := Option.some.inj live'
      exact ⟨u, live, waits waiting, same.start.symm⟩
    · exact ⟨v, live', waiting, rfl⟩
  · rw [State.train_setTrain]
    split
    · rename_i self
      subst self
      obtain rfl := Option.some.inj (live.symm.trans there)
      exact ⟨t, rfl, same.tag, rank⟩
    · exact ⟨v, there, rfl, rank⟩

theorem Law.train_listed {m : Midway} (works : Law.works m s) {i : Fin 32} {t : Train} (live : s.train i = some t) :
    Owner.train i ∈ s.admission := (works.2.1 (.train i)).mp (by rw [State.live, live]; rfl)

/-- A work other than a train joins (R11). -/
theorem Law.chains_of_joined {c : Prop} {m m' : Midway} {t : State} (works : Law.works m s) (h : Law.chains c m s)
    (o : Owner) (train : ∀ j, t.train j = s.train j) (admission : t.admission = s.admission ++ [o])
    (lost : m'.lost = m.lost) : Law.chains c m' t := by
  have rank {i : Fin 32} {v : Train} (live : s.train i = some v) : t.rank (.train i) = s.rank (.train i) := by
    rw [State.rank, admission]
    exact List.idxOf_append_of_mem (Law.train_listed works live)
  refine Law.chains_of h (fun j u live waiting => ⟨u, train j ▸ live, waiting, rfl⟩) (fun g mem => lost ▸ mem)
    fun i v j live some older => .inr ⟨v, (train i).trans live, rfl, ?_⟩
  rw [train] at some
  obtain ⟨w, live'⟩ := Option.isSome_iff_exists.mp some
  rwa [rank live, rank live']

/-- A train joins, behind the one that it waits on (R97). -/
theorem Law.chains_enrollTrain {c : Prop} {i : Fin 4} {m' : Midway} (works : Law.works (.holding i) s)
    (tags : Law.tags (.holding i) s) (h : Law.chains c (.holding i) s) {k : Fin 32} {u : Train}
    (e : s.EnrollsTrain i k u) : Law.chains c m' (s.enrollTrain k u) := by
  intro hc j v live waiting g o start
  have slot (j : Fin 32) : (s.enrollTrain k u).train j = if k = j then some u else s.train j :=
    State.train_setTrain (s := s) ..
  have rank {p : Fin 32} {w : Train} (there : s.train p = some w) :
      (s.enrollTrain k u).rank (.train p) = s.rank (.train p) :=
    List.idxOf_append_of_mem (Law.train_listed works there)
  have stays {p : Fin 32} {w : Train} (there : s.train p = some w) : (s.enrollTrain k u).train p = some w := by
    have other : k ≠ p := by
      rintro rfl
      rw [e.free] at there
      cases there
    rw [slot, if_neg other, there]
  refine .inr ?_
  rw [slot] at live
  split at live
  · rename_i self
    subst self
    obtain rfl := Option.some.inj live
    obtain ⟨p, mem⟩ := e.reference waiting g o start
    obtain ⟨w, there, tag⟩ := Option.map_eq_some_iff.mp ((tags.2.1 g (.train p)).mp mem)
    refine ⟨p, w, stays there, tag, ?_⟩
    have out : Owner.train k ∉ s.admission := fun mem => by
      have dead := (works.2.1 (.train k)).mpr mem
      rw [State.live, e.free] at dead
      cases dead
    have last : (s.enrollTrain k u).rank (.train k) = s.admission.length := by
      change (s.admission ++ [Owner.train k]).idxOf _ = _
      rw [List.idxOf_append_of_notMem out, List.idxOf_cons_self, Nat.add_zero]
    rw [last, rank there]
    exact List.idxOf_lt_length_iff.mpr (Law.train_listed works there)
  · obtain gone | ⟨p, w, there, tag, older⟩ := h hc j v live waiting g o start
    · cases gone
    · refine ⟨p, w, stays there, tag, ?_⟩
      rwa [rank there, rank live]

theorem Law.chains_of_empty {c : Prop} {m : Midway} (trains : ∀ i, s.train i = none) : Law.chains c m s := by
  intro _ j u live
  rw [trains] at live
  cases live

theorem Moves.chains (c : Prop) : Moves (Law.works.and .tags) (.chains c) where
  quiet q _ _ h := by rw [q]; exact h
  settle {m s tag l} lost none i _ h := by
    intro hc j u live waiting g o start
    obtain gone | older := h hc j u live waiting g o start
    · rw [lost] at gone
      obtain rfl | gone := List.mem_cons.mp gone
      · have other := none j u (Law.train_listed i.1 live) live waiting
        rw [start] at other
        simp [StartCondition.onEnd] at other
      · exact .inl gone
    · exact .inr older
  unpop _ _ _ h := h
  closeTrain st r live _ _ h := Law.chains_endedTrain h live st r
  closeCapture {m s i c} st _ _ _ h := Law.chains_of_left h (o := .capture i) nofun (fun _ => rfl) rfl rfl
  endFence _ _ _ _ _ _ h := Law.chains_of_left h (o := .fence) nofun (fun _ => rfl) rfl rfl
  lowerCount _ _ _ _ _ h := h
  reportNone _ _ _ _ h := h
  retrain live same waits _ _ h :=
    Law.chains_setTrain h live same (fun waiting => waits.elim (·.mp waiting) fun awake => absurd waiting awake.2) rfl
  wake _ live same awake _ _ _ h := Law.chains_setTrain h live same (fun waiting => absurd waiting awake) rfl
  insertEntry _ _ _ _ _ _ h := by rw [State.insert_eq]; exact h
  recapture _ _ _ _ _ h := h
  touchLine _ _ _ h := h
  easeRing _ _ _ h := h
  faultRing _ _ _ _ h := h
  stageFree _ _ _ _ _ h := h
  reserve _ _ _ _ h := h
  answer _ _ _ h := h
  undefineRing _ _ _ _ h := h
  redefineRing _ _ _ _ _ _ _ _ _ _ h := h
  enrollTrain e i _ h := Law.chains_enrollTrain i.1 i.2 h e
  enrollCapture {s i k c} _ j _ h := Law.chains_of_joined j.1 h (.capture k) (fun _ => rfl) rfl rfl
  enrollFence _ _ _ _ j _ h := Law.chains_of_joined j.1 h .fence (fun _ => rfl) rfl rfl
  adjust _ _ _ _ _ _ h := h
  refetch _ _ _ _ _ h := h
  advanceHead _ _ _ _ h := h
  setTail _ _ _ h := h
  discardHeld _ _ h := h
  clear c _ _ _ := Law.chains_of_empty c.trains
  toOff _ _ _ _ _ _ h := h
  enterRunning _ _ _ _ h := h
  configure _ _ _ _ _ _ h := h
  beginSweep _ _ _ _ h := h

theorem OuterMoves.chains (c : Prop) : OuterMoves (Law.works.and .tags) (.chains c) where
  rehost _ _ _ _ h := h
  pop _ _ _ h := h
  count _ _ _ _ h := h
  holdReset _ _ _ h := h
  releaseReset _ _ _ h := h

end Sys2Proof.Machine
end

section
/-! PROOFS. The trains below an ended one (R97, R111): the order in which a cascade ends them holds each once, and all
of them. -/

namespace Sys2Proof.Machine

set_option Elab.async false

variable {s : State}

/-! Chains of waiters -/

/-- `j` waits on a train that waits on … `a`, by `d` trains. -/
def State.Chain (s : State) : Nat → Fin 32 → Fin 32 → Prop
  | 0, a, j => a = j
  | d + 1, a, j => ∃ k t, s.train k = some t ∧ WaitsOn s t.tag j ∧ s.Chain d a k

/-- A train waits on one train's end only (R97). -/
theorem WaitsOn.tag_unique {g g' : Tag} {j : Fin 32} (h : WaitsOn s g j) (h' : WaitsOn s g' j) : g = g' := by
  obtain ⟨u, live, -, waits⟩ := h
  obtain ⟨u', live', -, waits'⟩ := h'
  obtain rfl := Option.some.inj (live.symm.trans live')
  cases start : u.start <;> simp_all [StartCondition.onEnd]

theorem State.Chain.trans {d e : Nat} {a i j : Fin 32} (h : s.Chain d a i) (h' : s.Chain e i j) :
    s.Chain (d + e) a j := by
  induction e generalizing j with
  | zero => exact h' ▸ h
  | succ e ih =>
    obtain ⟨k, t, live, waits, chain⟩ := h'
    exact ⟨k, t, live, waits, ih chain⟩

theorem State.Chain.one {a j : Fin 32} {t : Train} (live : s.train a = some t) (waits : WaitsOn s t.tag j) :
    s.Chain 1 a j := ⟨a, t, live, waits, rfl⟩

/-- A chain begins with a train that waits on its first. -/
theorem State.Chain.split {d : Nat} {a j : Fin 32} (h : s.Chain (d + 1) a j) :
    ∃ t b, s.train a = some t ∧ WaitsOn s t.tag b ∧ s.Chain d b j := by
  induction d generalizing j with
  | zero =>
    obtain ⟨k, t, live, waits, rfl⟩ := h
    exact ⟨t, j, live, waits, rfl⟩
  | succ d ih =>
    obtain ⟨k, t, live, waits, chain⟩ := h
    obtain ⟨u, b, live', waits', chain'⟩ := ih chain
    exact ⟨u, b, live', waits', k, t, live, waits, chain'⟩

/-- The trains below a tag are those at the end of a chain from one that waits on it. -/
theorem State.below_iff {g : Tag} {j : Fin 32} : s.Below g j ↔ ∃ a d, WaitsOn s g a ∧ s.Chain d a j := by
  constructor
  · intro below
    induction below with
    | waits live waiting meets => exact ⟨_, 0, ⟨_, live, waiting, meets⟩, rfl⟩
    | deeper _ live _ ih ih' =>
      obtain ⟨a, d, waits, chain⟩ := ih
      obtain ⟨b, e, waits', chain'⟩ := ih'
      exact ⟨a, _, waits, chain.trans ((State.Chain.one live waits').trans chain')⟩
  · rintro ⟨a, d, waits, chain⟩
    induction d generalizing j with
    | zero =>
      obtain ⟨u, live, waiting, meets⟩ := waits
      obtain rfl : a = j := chain
      exact .waits live waiting meets
    | succ d ih =>
      obtain ⟨k, t, live, ⟨u, live', waiting, meets⟩, chain⟩ := chain
      exact .deeper (ih chain) live (.waits live' waiting meets)

/-! The order of a cascade -/

/-- The works are accounted for as far as a cascade asks: each live train is on the list, which holds each work once,
and each tag is one train's. -/
structure State.Ordered (s : State) : Prop where
  once   : s.admission.Nodup
  listed : ∀ j t, s.train j = some t → Owner.train j ∈ s.admission
  unique : ∀ i j t u, s.train i = some t → s.train j = some u → t.tag = u.tag → i = j

theorem State.Ordered.mem_waiters (o : s.Ordered) {g : Tag} {j : Fin 32} :
    j ∈ s.waiters (StartCondition.onEnd g) ↔ WaitsOn s g j := by
  rw [State.waiters_eq, mem_oldestWaiting]
  constructor
  · rintro ⟨-, u, live, waiting, meets⟩
    exact ⟨u, live, waiting, meets⟩
  · rintro ⟨u, live, waiting, meets⟩
    exact ⟨o.listed j u live, u, live, waiting, meets⟩

/-- The trains below one that waits, as the order takes them (R111). -/
def State.cascadeBelow (s : State) (n : Nat) (i : Fin 32) : List (Fin 32) :=
  match s.train i with
  | some t => s.cascadeOrder n t.tag
  | none => []

theorem State.cascadeOrder_succ (n : Nat) (g : Tag) :
    s.cascadeOrder (n + 1) g =
      (s.waiters (StartCondition.onEnd g)).flatMap fun i => s.cascadeBelow n i ++ [i] := rfl

theorem State.Ordered.mem_cascadeOrder (o : s.Ordered) {n : Nat} {g : Tag} {j : Fin 32} :
    j ∈ s.cascadeOrder n g ↔ ∃ a d, d < n ∧ WaitsOn s g a ∧ s.Chain d a j := by
  induction n generalizing g with
  | zero =>
    simp only [State.cascadeOrder, List.not_mem_nil, false_iff]
    rintro ⟨a, d, none, -⟩
    exact Nat.not_lt_zero d none
  | succ n ih =>
    simp only [State.cascadeOrder_succ, List.mem_flatMap, o.mem_waiters, List.mem_append, List.mem_singleton]
    constructor
    · rintro ⟨a, waits, below | rfl⟩
      · obtain ⟨u, live, -⟩ := id waits
        rw [State.cascadeBelow, live] at below
        obtain ⟨b, d, short, waits', chain⟩ := ih.mp below
        exact ⟨a, 1 + d, by omega, waits, (State.Chain.one live waits').trans chain⟩
      · exact ⟨j, 0, Nat.succ_pos n, waits, rfl⟩
    · rintro ⟨a, d, short, waits, chain⟩
      refine ⟨a, waits, ?_⟩
      cases d with
      | zero => exact .inr (Eq.symm chain)
      | succ d =>
        obtain ⟨t, b, live, waits', chain'⟩ := chain.split
        refine .inl ?_
        rw [State.cascadeBelow, live]
        exact ih.mpr ⟨b, d, Nat.lt_of_succ_lt_succ short, waits', chain'⟩

/-- What the order holds is below the tag, and live. -/
theorem State.Ordered.below_of_mem (o : s.Ordered) {n : Nat} {g : Tag} {j : Fin 32} (mem : j ∈ s.cascadeOrder n g) :
    s.Below g j := by
  obtain ⟨a, d, -, waits, chain⟩ := o.mem_cascadeOrder.mp mem
  exact State.below_iff.mpr ⟨a, d, waits, chain⟩

theorem State.Below.live {g : Tag} {j : Fin 32} (below : s.Below g j) : s.train j ≠ none := by
  induction below with
  | waits live => rw [live]; exact Option.some_ne_none _
  | deeper _ _ _ _ ih => exact ih

/-! Each once -/

theorem State.Ordered.chain_first (o : s.Ordered) {d : Nat} {a b j : Fin 32} (ha : s.Chain d a j)
    (hb : s.Chain d b j) : a = b := by
  induction d generalizing j with
  | zero => exact Eq.trans ha (Eq.symm hb)
  | succ d ih =>
    obtain ⟨k, t, live, waits, chain⟩ := ha
    obtain ⟨k', t', live', waits', chain'⟩ := hb
    obtain rfl := o.unique k k' t t' live live' (WaitsOn.tag_unique waits waits')
    exact ih chain chain'

/-- Chains from the waiters of a tag to one train are one chain. -/
def State.Rooted (s : State) (g : Tag) : Prop := ∀ a b j d e, WaitsOn s g a → WaitsOn s g b →
  s.Chain d a j → s.Chain e b j → d = e

/-- The train of a tag is not below itself: then each train has one place below it. -/
theorem State.Ordered.rooted (o : s.Ordered) {i : Fin 32} {t : Train} (live : s.train i = some t)
    (apart : ¬s.Below t.tag i) : s.Rooted t.tag := by
  have under {b k : Fin 32} {u : Train} {e : Nat} (waits : WaitsOn s t.tag b) (live' : s.train k = some u)
      (same : u.tag = t.tag) : ¬s.Chain e b k := by
    obtain rfl := o.unique k i u t live' live same
    exact fun chain => apart (State.below_iff.mpr ⟨b, e, waits, chain⟩)
  intro a b j d e ha hb ca cb
  induction d generalizing e j with
  | zero =>
    obtain rfl : a = j := ca
    cases e with
    | zero => rfl
    | succ e =>
      obtain ⟨k, u, live', waits, chain⟩ := cb
      exact absurd chain (under hb live' (WaitsOn.tag_unique waits ha))
  | succ d ih =>
    obtain ⟨k, u, live', waits, chain⟩ := ca
    cases e with
    | zero =>
      obtain rfl : b = j := cb
      exact absurd chain (under ha live' (WaitsOn.tag_unique waits hb))
    | succ e =>
      obtain ⟨k', u', live'', waits', chain'⟩ := cb
      obtain rfl := o.unique k k' u u' live' live'' (WaitsOn.tag_unique waits waits')
      exact congrArg Nat.succ (ih k e chain chain')

/-- What holds below a tag holds below the trains that wait on it. -/
theorem State.Rooted.below {g : Tag} (rooted : s.Rooted g) {i : Fin 32} {t : Train} (waits : WaitsOn s g i)
    (live : s.train i = some t) : s.Rooted t.tag := by
  intro a b j d e ha hb ca cb
  have := rooted i i j _ _ waits waits ((State.Chain.one live ha).trans ca) ((State.Chain.one live hb).trans cb)
  omega

theorem State.Ordered.nodup_cascadeOrder (o : s.Ordered) {g : Tag} (rooted : s.Rooted g) (n : Nat) :
    (s.cascadeOrder n g).Nodup := by
  induction n generalizing g with
  | zero => exact List.nodup_nil
  | succ n ih =>
    have waiters := waiters_wait (p := StartCondition.onEnd g) o.once
    rw [← State.waiters_eq] at waiters
    have chain_of {i x : Fin 32} (mem : x ∈ s.cascadeBelow n i ++ [i]) : ∃ d, s.Chain d i x := by
      obtain below | self := List.mem_append.mp mem
      · unfold State.cascadeBelow at below
        split at below
        · rename_i t live
          obtain ⟨b, d, -, waits, chain⟩ := o.mem_cascadeOrder.mp below
          exact ⟨1 + d, (State.Chain.one live waits).trans chain⟩
        · cases below
      · exact ⟨0, (List.mem_singleton.mp self).symm⟩
    rw [State.cascadeOrder_succ, List.nodup_flatMap]
    refine ⟨fun i mem => ?_, waiters.1.imp_of_mem fun {a b} ha hb other => ?_⟩
    · have waits := o.mem_waiters.mp mem
      obtain ⟨t, live, -⟩ := id waits
      rw [State.cascadeBelow, live]
      refine (ih (rooted.below waits live)).append (List.nodup_singleton i) ?_
      refine List.disjoint_singleton.mpr fun below => ?_
      obtain ⟨b, d, -, waits', chain⟩ := o.mem_cascadeOrder.mp below
      have := rooted i i i 0 (1 + d) waits waits rfl ((State.Chain.one live waits').trans chain)
      omega
    · intro x hx hx'
      obtain ⟨d, chain⟩ := chain_of hx
      obtain ⟨e, chain'⟩ := chain_of hx'
      obtain rfl := rooted a b x d e (o.mem_waiters.mp ha) (o.mem_waiters.mp hb) chain chain'
      exact other (o.chain_first chain chain')

/-- A train that does not wait is not below itself. -/
theorem State.not_below_of_awake {i : Fin 32} {t : Train} {g : Tag} (live : s.train i = some t)
    (awake : t.state ≠ .waiting) : ¬s.Below g i := by
  have still {g : Tag} : ¬WaitsOn s g i := by
    rintro ⟨u, live', waiting, -⟩
    exact awake (Option.some.inj (live.symm.trans live') ▸ waiting)
  intro below
  obtain ⟨a, d, waits, chain⟩ := State.below_iff.mp below
  cases d with
  | zero => exact still (chain ▸ waits)
  | succ d =>
    obtain ⟨k, u, -, waits', -⟩ := chain
    exact still waits'

/-! Each within the depth of 32 trains -/

/-- A chain's trains grow younger. -/
theorem State.Ordered.chain_rank (o : s.Ordered) (chains : s.ChainsSound) {k j : Fin 32} {t : Train}
    (live : s.train k = some t) (waits : WaitsOn s t.tag j) : s.rank (.train k) < s.rank (.train j) := by
  obtain ⟨u, live', waiting, meets⟩ := waits
  cases start : u.start with
  | afterEnd g offset =>
    rw [start] at meets
    obtain rfl : g = t.tag := by simpa [StartCondition.onEnd] using meets
    obtain ⟨i, v, live'', tag, older⟩ := chains j u live' waiting _ offset start
    obtain rfl := o.unique i k v t live'' live tag
    exact older
  | atTime => rw [start] at meets; cases meets
  | now => rw [start] at meets; cases meets
  | afterEdge g n offset => rw [start] at meets; cases meets

/-- How many trains are older than the one in the slot. -/
def State.older (s : State) (j : Fin 32) : Nat :=
  (List.finRange 32).countP fun i => decide (s.rank (.train i) < s.rank (.train j))

theorem State.older_lt {i j : Fin 32} (rank : s.rank (.train i) < s.rank (.train j)) : s.older i < s.older j := by
  have step := countP_update (List.nodup_finRange 32) (List.mem_finRange i)
    (p := fun k => decide (s.rank (.train k) < s.rank (.train i)))
    (q := fun k => decide (s.rank (.train k) < s.rank (.train i)) || decide (k = i))
    fun k other => by simp [other]
  simp only [lt_irrefl, decide_false, decide_true, Bool.or_true, Bool.false_eq_true, if_false, if_true,
    Nat.add_zero] at step
  have more : (List.finRange 32).countP (fun k => decide (s.rank (.train k) < s.rank (.train i)) || decide (k = i))
      ≤ s.older j := by
    refine List.countP_mono_left fun k _ within => ?_
    simp only [Bool.or_eq_true, decide_eq_true_eq] at within ⊢
    obtain less | rfl := within
    · exact less.trans rank
    · exact rank
  unfold State.older at more ⊢
  omega

theorem State.Ordered.chain_older (o : s.Ordered) (chains : s.ChainsSound) {d : Nat} {a j : Fin 32}
    (chain : s.Chain d a j) : s.older a + d ≤ s.older j := by
  induction d generalizing j with
  | zero => exact Nat.le_of_eq (congrArg s.older chain)
  | succ d ih =>
    obtain ⟨k, t, live, waits, chain⟩ := chain
    have := ih chain
    have := State.older_lt (o.chain_rank chains live waits)
    omega

theorem State.older_le (j : Fin 32) : s.older j ≤ 31 := by
  have step := countP_update (List.nodup_finRange 32) (List.mem_finRange j)
    (p := fun _ => true) (q := fun k => !decide (k = j)) fun k other => by simp [other]
  simp only [decide_true, Bool.not_true, Bool.false_eq_true, if_false, if_true, List.countP_true,
    List.length_finRange] at step
  have less : s.older j ≤ (List.finRange 32).countP fun k => !decide (k = j) := by
    refine List.countP_mono_left fun k _ within => ?_
    simp only [decide_eq_true_eq] at within
    have other : k ≠ j := by
      rintro rfl
      exact lt_irrefl _ within
    simp [other]
  omega

/-- The order to the depth of 32 trains holds every train below (R97, R111). -/
theorem State.Ordered.mem_cascadeOrder_iff_below (o : s.Ordered) (chains : s.ChainsSound) {g : Tag} {j : Fin 32} :
    j ∈ s.cascadeOrder 32 g ↔ s.Below g j := by
  refine ⟨o.below_of_mem, fun below => ?_⟩
  obtain ⟨a, d, waits, chain⟩ := State.below_iff.mp below
  have := o.chain_older chains chain
  have := State.older_le (s := s) j
  exact o.mem_cascadeOrder.mpr ⟨a, d, by omega, waits, chain⟩

/-- Where chains run from older to younger, no train is below itself. -/
theorem State.Ordered.not_below_self (o : s.Ordered) (chains : s.ChainsSound) {i : Fin 32} {t : Train}
    (live : s.train i = some t) : ¬s.Below t.tag i := by
  intro below
  obtain ⟨a, d, waits, chain⟩ := State.below_iff.mp below
  have := o.chain_older chains ((State.Chain.one live waits).trans chain)
  omega

theorem Law.ordered {m : Midway} (works : Law.works m s) (tags : Law.tags m s) : s.Ordered where
  once := works.1
  listed _ _ live := Law.train_listed works live
  unique i j t u hi hj same := by
    have tag {k : Fin 32} {v : Train} (live : s.train k = some v) : s.tagOf (.train k) = some v.tag := by
      rw [State.tagOf, live]
      rfl
    exact Work.train.inj (Law.tags_unique tags (tag hi) (same ▸ tag hj))

end Sys2Proof.Machine
end

section
/-! PROOFS. The account of works is kept by every step: the ends in cascade and the quiesce sweep, which end many
works at once, end each live one once. -/

namespace Sys2Proof.Machine

set_option Elab.async false

variable {s : State}

/-! Which trains are left -/

/-- `r` is `s` without the trains in the slots `gone`, as far as trains and their order go. -/
structure State.Thinned (gone : List (Fin 32)) (s r : State) : Prop where
  train     : ∀ k, r.train k = if k ∈ gone then none else s.train k
  admission : ∃ p : Owner → Bool, r.admission = s.admission.filter p ∧ ∀ k ∉ gone, p (.train k) = true

theorem State.Thinned.trans {a b : List (Fin 32)} {r t : State} (first : s.Thinned a r) (second : r.Thinned b t) :
    s.Thinned (a ++ b) t where
  train k := by
    rw [second.train, first.train]
    by_cases ha : k ∈ a <;> by_cases hb : k ∈ b <;> simp [ha, hb]
  admission := by
    obtain ⟨p, hp, stays⟩ := first.admission
    obtain ⟨q, hq, stays'⟩ := second.admission
    refine ⟨fun o => p o && q o, by rw [hq, hp, List.filter_filter]; simp only [Bool.and_comm], fun k out => ?_⟩
    rw [List.mem_append, not_or] at out
    exact Bool.and_eq_true_iff.mpr ⟨stays k out.1, stays' k out.2⟩

theorem State.thinned_refl (s : State) : s.Thinned [] s where
  train _ := rfl
  admission := ⟨fun _ => true, (List.filter_eq_self.mpr fun _ _ => rfl).symm, fun _ _ => rfl⟩

theorem State.thinned_reportEnd (s : State) : s.Thinned [] s.reportEnd := by
  obtain ⟨-, e⟩ | ⟨f, -, -, -, e⟩ | ⟨f, -, -, e⟩ := s.reportEnd_cases
  · rw [e]
    exact s.thinned_refl
  · have kept (r : State) : r.issueRead.trains = r.trains ∧ r.issueRead.admission = r.admission := by
      obtain ⟨-, e⟩ | ⟨-, e⟩ := r.issueRead_cases
      · rw [e]; exact ⟨rfl, rfl⟩
      · rw [e]; exact ⟨rfl, rfl⟩
    obtain ⟨trains, admission⟩ := kept (s.endFence { f with count := f.count - 1 } .ok)
    rw [e]
    refine ⟨fun k => congrArg (·[k]) trains, fun w => !decide (w = .fence), admission, fun k _ => ?_⟩
    simp
  · rw [e]
    exact ⟨fun _ => rfl, s.thinned_refl.admission⟩

theorem State.thinned_closeTrain (s : State) (i : Fin 32) (st : Status) (cascaded : Bool) :
    s.Thinned [i] (s.closeTrain i st cascaded) := by
  cases live : s.train i with
  | none =>
    have same : s.closeTrain i st cascaded = s := by simp only [State.closeTrain, live]
    rw [same]
    obtain ⟨p, hp, stays⟩ := s.thinned_refl.admission
    refine ⟨fun k => ?_, p, hp, fun k _ => stays k List.not_mem_nil⟩
    by_cases self : k = i <;> simp [self, live]
  | some t =>
    rw [State.closeTrain_of_train live]
    refine ⟨fun k => ?_, fun w => !decide (w = .train i), rfl, fun k out => ?_⟩
    · rw [endedTrain_train]
      simp only [List.mem_singleton, eq_comm]
    · simpa using out

theorem State.thinned_endCascaded (s : State) (j : Fin 32) : s.Thinned [j] (s.endCascaded j) :=
  (s.thinned_closeTrain j .cancelled true).trans (State.thinned_reportEnd _)

theorem State.thinned_foldl (l : List (Fin 32)) (s : State) : s.Thinned l (l.foldl State.endCascaded s) := by
  induction l generalizing s with
  | nil => exact s.thinned_refl
  | cons j l ih => exact (s.thinned_endCascaded j).trans (ih (s.endCascaded j))

/-- An end in cascade takes the ended train's order with it (R111). -/
theorem State.thinned_endTrainCascade {i : Fin 32} {t : Train} (live : s.train i = some t) (st : Status) :
    s.Thinned (s.cascadeOrder 32 t.tag ++ [i]) (s.endTrainCascade i st) := by
  simp only [State.endTrainCascade, live]
  have all := ((State.thinned_foldl (s.cascadeOrder 32 t.tag) s).trans
    (State.thinned_closeTrain _ i st false)).trans (State.thinned_reportEnd _)
  rwa [List.append_nil] at all

/-- The trains that are left wait on trains that are left, when none that is gone is waited on by one that is left. -/
theorem State.Thinned.chains {gone : List (Fin 32)} {r : State} (thin : s.Thinned gone r) (sound : s.ChainsSound)
    (all : ∀ i t j, i ∈ gone → s.train i = some t → WaitsOn s t.tag j → j ∈ gone) : r.ChainsSound := by
  have left {k : Fin 32} {u : Train} (live : r.train k = some u) : k ∉ gone ∧ s.train k = some u := by
    rw [thin.train] at live
    split at live
    · cases live
    · exact ⟨‹_›, live⟩
  intro j u live waiting g o start
  obtain ⟨stays, live⟩ := left live
  obtain ⟨i, t, live', rfl, rank⟩ := sound j u live waiting g o start
  have waits : WaitsOn s t.tag j := ⟨u, live, waiting, by rw [start]; simp [StartCondition.onEnd]⟩
  have here : i ∉ gone := fun mem => stays (all i t j mem live' waits)
  obtain ⟨p, filtered, kept⟩ := thin.admission
  refine ⟨i, t, (by rw [thin.train, if_neg here]; exact live'), rfl, ?_⟩
  rw [State.rank, State.rank, filtered]
  exact idxOf_filter_lt (kept i here) (kept j stays) rank

/-- An end in cascade leaves no train that waits on one it ended (R111). -/
theorem State.Ordered.chains_endTrainCascade (o : s.Ordered) (sound : s.ChainsSound) {i : Fin 32} {t : Train}
    (live : s.train i = some t) (st : Status) : (s.endTrainCascade i st).ChainsSound := by
  refine (State.thinned_endTrainCascade live st).chains sound fun k v j mem live' waits => ?_
  refine List.mem_append_left _ ((o.mem_cascadeOrder_iff_below sound).mpr ?_)
  obtain ⟨u, there, waiting, meets⟩ := waits
  obtain below | self := List.mem_append.mp mem
  · exact .deeper ((o.mem_cascadeOrder_iff_below sound).mp below) live' (.waits there waiting meets)
  · obtain rfl := List.mem_singleton.mp self
    obtain rfl := Option.some.inj (live.symm.trans live')
    exact .waits there waiting meets

/-! Laws that do not ask whose waiters are to be seen to -/

/-- The law reads nothing of the tags of ended trains. -/
def Law.Loose (P : Law) : Prop := ∀ {m s} lost, P m s → P { m with lost := lost } s

theorem State.reportEnd_of_unfenced (free : s.fetch.waiting = none) : s.reportEnd = s := by
  rw [State.reportEnd_eq, fenceTold_of_none free]

theorem State.endCascaded_unfenced (free : s.fetch.waiting = none) (j : Fin 32) :
    (s.endCascaded j).fetch.waiting = none := by
  have closed : (s.closeTrain j .cancelled true).fetch = s.fetch := by
    unfold State.closeTrain
    split <;> rfl
  rw [← closed] at free
  rwa [State.endCascaded, State.reportEnd_of_unfenced free]

section
variable {P : Law} (K : Moves .always P) (loose : P.Loose) {m : Midway}
include K loose

/-- A train's end, reported. -/
theorem Moves.closeTrain_reported {i : Fin 32} {t : Train} (live : s.train i = some t) (st : Status) (cascaded : Bool)
    (told : m.unreported = 0) (apart : m.popped ≠ some .fence) (h : P m s) :
    P (m.forget (.train i)) ((s.closeTrain i st cascaded).reportEnd) := by
  have other : (m.closed (.train i) [t.tag]).popped ≠ some .fence := by
    simp only [Midway.closed, Midway.forget]
    split
    · exact (Option.some_ne_none _).symm
    · exact apart
  have reported := loose m.lost (K.reportEnd (Nat.le_add_left ..) other (K.closeTrain_run live st cascaded h))
  have same : ({ (m.closed (.train i) [t.tag]).reported with lost := m.lost } : Midway) = m.forget (.train i) := by
    simp only [Midway.closed, Midway.reported, Midway.forget, told]
  rwa [same] at reported

/-- A live work's turn of the sweep. -/
theorem Moves.abort {o : Owner} (live : s.live o = true) (told : m.unreported = 0) (acted : m.popped = none)
    (h : P m s) : P m (s.abort o) := by
  obtain ⟨unreported, popped, lost, place, sweeping⟩ := m
  obtain rfl : unreported = 0 := told
  obtain rfl : popped = none := acted
  cases o with
  | train i =>
    obtain ⟨t, there⟩ := Option.isSome_iff_exists.mp live
    exact K.closeTrain_reported loose there .aborted false rfl (Option.some_ne_none _).symm h
  | capture i =>
    obtain ⟨c, there⟩ := Option.isSome_iff_exists.mp live
    have closed := (K.closeCapture .aborted there).run h
    rw [Midway.closed_eq (.inl rfl)] at closed
    have reported := loose lost (K.reportEnd (Nat.le_add_left ..) (Option.some_ne_none _).symm closed)
    simp only [State.abort, State.abortCapture, there]
    exact reported
  | fence =>
    obtain ⟨f, waits⟩ := Option.isSome_iff_exists.mp live
    have fenced : s.fetch = .fenced f := by
      cases unit : s.fetch <;> rw [unit] at waits <;> cases waits
      rfl
    have ended := (K.endFence 0 f.count .aborted fenced).run h
    simp only [State.abort, State.abortFence, fenced]
    exact ended

/-- The sweep ends each live work once (R189). -/
theorem Moves.foldl_abort (told : m.unreported = 0) (acted : m.popped = none) (l : List Owner) (once : l.Nodup)
    (live : ∀ o ∈ l, s.live o = true) (quiescing : s.device = .quiescing) (h : P m s) :
    P m (l.foldl State.abort s) := by
  induction l generalizing s with
  | nil => exact h
  | cons o l ih =>
    rw [List.nodup_cons] at once
    refine ih once.2 (fun x mem => ?_) (State.abort_device quiescing o)
      (K.abort loose (live o List.mem_cons_self) told acted h)
    have other : x ≠ o := fun same => once.1 (same ▸ mem)
    rw [State.abort_live quiescing, live x (List.mem_cons_of_mem _ mem), decide_eq_false other]
    rfl

/-- The ends of a cascade: each is of a live train, or no fence waits for it (R111). -/
theorem Moves.foldl_endCascaded {o : Owner} (apart : o ≠ .fence) (told : m.unreported = 0) (l : List (Fin 32))
    (ends : s.fetch.waiting = none ∨ l.Nodup ∧ ∀ j ∈ l, s.train j ≠ none)
    (acts : m.popped = none ∨ m.popped = some o) (h : P m s) :
    ∃ p, (p = none ∨ p = some o) ∧ P { m with popped := p } (l.foldl State.endCascaded s) := by
  induction l generalizing s m with
  | nil => exact ⟨m.popped, acts, h⟩
  | cons j l ih =>
    have rest : (s.endCascaded j).fetch.waiting = none
        ∨ l.Nodup ∧ ∀ k ∈ l, (s.endCascaded j).train k ≠ none := by
      refine ends.imp (State.endCascaded_unfenced · j) fun ⟨once, live⟩ => ?_
      rw [List.nodup_cons] at once
      refine ⟨once.2, fun k mem => ?_⟩
      have other : k ∉ [j] := fun same => once.1 (List.mem_singleton.mp same ▸ mem)
      rw [(s.thinned_endCascaded j).train, if_neg other]
      exact live k (List.mem_cons_of_mem _ mem)
    cases there : s.train j with
    | some t =>
      have calm : m.popped ≠ some .fence := by
        obtain none | self := acts
        · rw [none]; exact (Option.some_ne_none _).symm
        · rw [self]; exact fun same => apart (Option.some.inj same)
      have acts' : (m.forget (.train j)).popped = none ∨ (m.forget (.train j)).popped = some o := by
        simp only [Midway.forget]
        split
        · exact .inl rfl
        · exact acts
      exact ih (m := m.forget (.train j)) told rest acts'
        (K.closeTrain_reported loose there .cancelled true told calm h)
    | none =>
      have free := ends.resolve_right fun ⟨_, live⟩ => live j List.mem_cons_self there
      have same : s.endCascaded j = s := by
        simp only [State.endCascaded, State.closeTrain, there, State.reportEnd_of_unfenced free]
      rw [same] at rest
      simp only [List.foldl_cons, same]
      exact ih told rest acts h

/-- A train's end in cascade, its end the last (R111). -/
theorem Moves.endTrainCascade {i : Fin 32} {t : Train} (live : s.train i = some t) (st : Status)
    (ends : s.fetch.waiting = none ∨ (s.cascadeOrder 32 t.tag ++ [i]).Nodup
      ∧ ∀ j ∈ s.cascadeOrder 32 t.tag, s.train j ≠ none)
    (told : m.unreported = 0) (acts : m.popped = none ∨ m.popped = some (.train i)) (h : P m s) :
    P m.acted (s.endTrainCascade i st) := by
  simp only [State.endTrainCascade, live]
  obtain ⟨p, acts', below⟩ := K.foldl_endCascaded loose (o := .train i) (fun same => nomatch same) told
    (s.cascadeOrder 32 t.tag) (ends.imp id fun ⟨once, all⟩ => ⟨(List.nodup_append.mp once).1, all⟩) acts h
  have slot := (State.thinned_foldl (s.cascadeOrder 32 t.tag) s).train i
  cases there : ((s.cascadeOrder 32 t.tag).foldl State.endCascaded s).train i with
  | some u =>
    have calm : p ≠ some .fence := by
      obtain rfl | rfl := acts' <;> simp
    have acted : ({ m with popped := p } : Midway).forget (.train i) = m.acted := by
      obtain rfl | rfl := acts' <;> simp [Midway.forget, Midway.acted]
    exact acted ▸ K.closeTrain_reported loose (m := { m with popped := p }) there st false told calm below
  | none =>
    have mem : i ∈ s.cascadeOrder 32 t.tag := by
      by_contra out
      rw [there, if_neg out, live] at slot
      cases slot
    have free := ends.resolve_right fun ⟨once, _⟩ =>
      List.disjoint_of_nodup_append once mem (List.mem_singleton_self i)
    have unfenced : ((s.cascadeOrder 32 t.tag).foldl State.endCascaded s).fetch.waiting = none :=
      foldl_keeps (P := fun _ s => s.fetch.waiting = none) (m := m)
        (fun _ j free => State.endCascaded_unfenced free j) _ free
    have closed : ((s.cascadeOrder 32 t.tag).foldl State.endCascaded s).closeTrain i st false
        = (s.cascadeOrder 32 t.tag).foldl State.endCascaded s := by simp only [State.closeTrain, there]
    rw [closed, State.reportEnd_of_unfenced unfenced]
    refine (K.unpop (m := { m with popped := p }) fun k u popped live' => ?_).run below
    obtain rfl | rfl := acts'
    · cases popped
    · rw [← Owner.train.inj (Option.some.inj popped), there] at live'
      cases live'

end

/-! The account of works -/

/-- The account of works but for the chains of waiters: list, tags, rings, places and entries. -/
def Law.ledger : Law := (((Law.works.and .tags).and .rings).and .accounts).and .entries

theorem Moves.ledger : Moves .always .ledger :=
  (((Moves.works.and (fun _ _ h => h) Moves.tags).and (fun _ _ _ => trivial) Moves.rings).and
    (fun _ _ ⟨⟨works, _⟩, rings⟩ => ⟨works, rings⟩) Moves.accounts).and
    (fun _ _ ⟨⟨⟨works, _⟩, _⟩, _⟩ => works) Moves.entries

theorem OuterMoves.ledger : OuterMoves .always .ledger :=
  (((OuterMoves.works.and (fun _ _ h => h) OuterMoves.tags).and (fun _ _ _ => trivial) OuterMoves.rings).and
    (fun _ _ ⟨⟨works, _⟩, rings⟩ => ⟨works, rings⟩) OuterMoves.accounts).and
    (fun _ _ ⟨⟨⟨works, _⟩, _⟩, _⟩ => works) OuterMoves.entries

theorem Law.loose_ledger : Law.ledger.Loose := fun _ ⟨⟨⟨⟨works, tags⟩, rings⟩, accounts⟩, entries⟩ =>
  ⟨⟨⟨⟨works, tags⟩, rings⟩, accounts⟩, entries⟩

/-- With no work left the account of the sweep is that of a state at rest. -/
theorem Law.ledger_rest_of_none (h : Law.ledger (.sweep []) s) (none : ∀ o, s.live o = false) :
    Law.ledger .rest s := by
  obtain ⟨⟨⟨⟨⟨once, listed, entries, -⟩, tags⟩, rings⟩, accounts⟩, calendar⟩ := h
  have unfenced := (State.noWork_iff.mpr none).2.2
  exact ⟨⟨⟨⟨⟨once, listed, entries, fun _ _ => none⟩,
    Law.tags_of_unfenced tags (fun _ => rfl) rfl unfenced⟩, rings⟩, accounts⟩, calendar⟩

/-- The sweep has one turn for each live work (R189). -/
theorem State.sweepOrder_nodup (once : s.admission.Nodup) (entries : s.owners.Nodup) : s.sweepOrder.Nodup := by
  refine entries.append (once.filter _) (List.disjoint_left.mpr fun o entry listed => ?_)
  have out := (List.mem_filter.mp listed).2
  rw [Bool.not_eq_true', decide_eq_false_iff_not] at out
  exact out entry

theorem Law.live_of_mem_sweepOrder {m : Midway} (works : Law.works m s) {o : Owner} (mem : o ∈ s.sweepOrder) :
    s.live o = true := by
  obtain ⟨-, listed, entries, -⟩ := works
  obtain entry | rest := List.mem_append.mp mem
  · obtain ⟨e, he, rfl⟩ := List.mem_map.mp entry
    exact entries e he
  · exact (listed o).mpr (List.mem_filter.mp rest).1

/-- The account of works is kept by the ends in cascade and the sweep too. -/
theorem Kept.account (c : Prop) : Kept (Law.ledger.and (.chains c)) where
  toMoves := Moves.ledger.and (fun _ _ ⟨⟨⟨both, _⟩, _⟩, _⟩ => both) (Moves.chains c)
  cascade {m s i t} st live calm acts told lost h := by
    obtain ⟨ledger, chains⟩ := h
    obtain ⟨⟨⟨⟨works, tags⟩, -⟩, -⟩, -⟩ := id ledger
    have o := Law.ordered works tags
    refine ⟨Moves.ledger.endTrainCascade Law.loose_ledger live st ?_ told acts ledger,
      fun hc j u there waits g n start => ?_⟩
    · refine calm.symm.imp id fun awake => ⟨?_, fun j mem => (o.below_of_mem mem).live⟩
      have apart := State.not_below_of_awake (g := t.tag) live awake
      exact (o.nodup_cascadeOrder (o.rooted live apart) 32).append (List.nodup_singleton i)
        (List.disjoint_singleton.mpr fun mem => apart (o.below_of_mem mem))
    · have sound : s.ChainsSound := fun j u there waits g n start =>
        (chains hc j u there waits g n start).resolve_left fun gone => by
          rw [lost] at gone
          cases gone
      exact .inr (o.chains_endTrainCascade sound live st j u there waits g n start)
  swept {s} quiescing h := by
    obtain ⟨⟨⟨⟨⟨works, -⟩, -⟩, -⟩, entries⟩, -⟩ := id h
    have none := Law.works_swept quiescing works
    have swept := Moves.ledger.foldl_abort Law.loose_ledger rfl rfl s.sweepOrder
      (State.sweepOrder_nodup works.1 entries.2.1) (fun o => Law.live_of_mem_sweepOrder works) quiescing h.1
    exact ⟨Law.ledger_rest_of_none swept none, Law.chains_of_empty (State.noWork_iff.mpr none).1⟩

theorem OuterMoves.account (c : Prop) : OuterMoves .always (Law.ledger.and (.chains c)) :=
  OuterMoves.ledger.and (fun _ _ ⟨⟨⟨both, _⟩, _⟩, _⟩ => both) (OuterMoves.chains c)

/-- Settles O8: each move that a step is made of keeps the account of works. -/
theorem everyWorkKeepsItsPlace : Obligations.EveryWorkKeepsItsPlace := by
  intro s t rings works tags accounts entries result
  have ledger : Law.ledger .rest s :=
    ⟨⟨⟨⟨Law.works_rest.mpr works, Law.tags_rest.mpr tags⟩, rings⟩, Law.accounts_rest.mpr accounts⟩,
      Law.entries_rest.mpr entries⟩
  obtain ⟨⟨⟨⟨⟨works', tags'⟩, rings'⟩, accounts'⟩, entries'⟩, chains'⟩ :=
    (Kept.account s.ChainsSound).step (OuterMoves.account s.ChainsSound) ⟨ledger, Law.chains_rest.mpr id⟩ result
  exact ⟨rings', Law.works_rest.mp works', Law.tags_rest.mp tags', Law.accounts_rest.mp accounts',
    Law.entries_rest.mp entries', Law.chains_rest.mp chains'⟩

end Sys2Proof.Machine
end

section
/-! PROOFS. The quiesce sweep (chapters 6 and 9): what one work's turn leaves, and what all of them leave. -/

namespace Sys2Proof.Machine

set_option Elab.async false

variable {s : State}

/-! One turn -/

/-- The unit after one end reported in the sweep: a fence that waits counts one fewer (R141). -/
def Fetch.lowered : Fetch → Fetch
  | .fenced f => .fenced { f with count := f.count - 1 }
  | other => other

theorem State.reportEnd_quiescing (quiescing : s.device = .quiescing) :
    s.reportEnd = { s with fetch := s.fetch.lowered } := by
  obtain ⟨free, e⟩ | ⟨f, -, -, running, -⟩ | ⟨f, waits, -, e⟩ := s.reportEnd_cases
  · have same : s.fetch.lowered = s.fetch := by
      unfold Fetch.lowered
      split
      · rename_i f waits
        exact absurd waits (free f)
      · rfl
    rw [e, same]
  · rw [quiescing] at running
    cases running
  · rw [e, waits]
    rfl

theorem State.abort_train (quiescing : s.device = .quiescing) {i : Fin 32} {t : Train} (live : s.train i = some t) :
    s.abort (.train i) =
      { endedTrain s i t .aborted (trainEndOf s t .aborted false t.repsDone) with fetch := s.fetch.lowered } := by
  rw [State.abort, State.abortTrain, State.closeTrain_of_train live]
  exact State.reportEnd_quiescing (s := endedTrain s i t .aborted (trainEndOf s t .aborted false t.repsDone)) quiescing

theorem State.abort_capture (quiescing : s.device = .quiescing) {i : Fin 16} {c : Capture}
    (live : s.capture i = some c) :
    s.abort (.capture i) =
      { (s.closeCapture i c .aborted).setCapture i none with fetch := s.fetch.lowered } := by
  simp only [State.abort, State.abortCapture, live]
  exact State.reportEnd_quiescing (s := (s.closeCapture i c .aborted).setCapture i none) quiescing

theorem State.abort_fence {f : Fence} (waits : s.fetch = .fenced f) :
    s.abort .fence = s.endFence f .aborted := by
  simp only [State.abort, State.abortFence, waits]

/-- In the sweep a line keeps its level as long as it keeps its owner, and rests at its idle level when it has lost
it (R36, R38). -/
def Line.SweptFrom (x y : Line) : Prop :=
  y = { x with successor := y.successor } ∨ x.owner ≠ none ∧ y =
    { x with present := .rest x.idle, owner := y.owner, successor := y.successor, modulator := none }

theorem Line.SweptFrom.trainEnded {x y : Line} (h : x.SweptFrom y) (i : Fin 32) (p : EndPolicy) :
    x.SweptFrom (y.trainEnded i .aborted p) := by
  have rest (z : Line) : z.ownerEnded .aborted p =
      { z with present := .rest z.idle, owner := z.successor, successor := none, modulator := none } := by
    obtain ⟨drive, idle, faultLevel, highWidth, period, present, owner, successor, modulator⟩ := z
    cases idle <;> rfl
  unfold Line.trainEnded
  split
  · rename_i owned
    obtain same | ⟨owned', same⟩ := h
    · refine .inr ⟨fun none => ?_, ?_⟩
      · rw [same, none] at owned
        cases owned
      · rw [rest, same]
    · exact .inr ⟨owned', by rw [rest, same]⟩
  · split
    · obtain same | ⟨owned, same⟩ := h
      · exact .inl (by rw [same])
      · exact .inr ⟨owned, by rw [same]⟩
    · exact h

/-- `t` is what turns of the sweep can make of `s`. -/
structure State.SweepsTo (s t : State) : Prop where
  frame : t = { s with
    calendar := t.calendar, admission := t.admission, trains := t.trains, lines := t.lines
    captures := t.captures, fetch := t.fetch, tagMap := t.tagMap, rings := t.rings }
  ring  : ∀ m, t.ring m = { s.ring m with staged := (t.ring m).staged, owed := (t.ring m).owed }
  line  : ∀ l x, Line.SweptFrom x (s.line l) → Line.SweptFrom x (t.line l)
  fetch : s.fetch.waiting = none ∧ t.fetch = s.fetch
    ∨ s.fetch.waiting ≠ none ∧ (t.fetch.waiting = none → t.fetch = .idle)

theorem State.SweepsTo.trans {a b c : State} (ab : a.SweepsTo b) (bc : b.SweepsTo c) : a.SweepsTo c where
  frame := by
    have e := bc.frame
    rw [ab.frame] at e
    exact e
  ring m := by
    have e := bc.ring m
    rw [ab.ring m] at e
    exact e
  line l x h := bc.line l x (ab.line l x h)
  fetch := by
    obtain ⟨free, same⟩ | ⟨fenced, rests⟩ := ab.fetch
    · obtain ⟨-, same'⟩ | ⟨fenced, -⟩ := bc.fetch
      · exact .inl ⟨free, same'.trans same⟩
      · exact absurd (same ▸ free) fenced
    · obtain ⟨free, same'⟩ | ⟨-, rests'⟩ := bc.fetch
      · exact .inr ⟨fenced, fun _ => same'.trans (rests free)⟩
      · exact .inr ⟨fenced, rests'⟩

theorem State.SweepsTo.refl (s : State) : s.SweepsTo s := by
  refine ⟨rfl, fun _ => rfl, fun _ _ h => h, ?_⟩
  by_cases free : s.fetch.waiting = none
  · exact .inl ⟨free, rfl⟩
  · exact .inr ⟨free, fun none => absurd none free⟩

theorem Fetch.lowered_waiting (f : Fetch) :
    f.waiting = none ∧ f.lowered = f ∨ f.waiting ≠ none ∧ (f.lowered.waiting = none → f.lowered = .idle) := by
  cases f with
  | fenced f => exact .inr ⟨(Option.some_ne_none _), nofun⟩
  | idle => exact .inl ⟨rfl, rfl⟩
  | reading r => exact .inl ⟨rfl, rfl⟩
  | stalled c t => exact .inl ⟨rfl, rfl⟩

theorem State.stageFinal_ring_eq (s : State) (i m : Fin 4) (c : Completion) : (s.stageFinal i c).ring m =
    { s.ring m with
      staged := ((s.stageFinal i c).ring m).staged, owed := ((s.stageFinal i c).ring m).owed } := by
  rw [State.ring_stageFinal]
  split
  · subst i
    rfl
  · rfl

theorem State.abort_sweepsTo (quiescing : s.device = .quiescing) {o : Owner} (live : s.live o = true) :
    s.SweepsTo (s.abort o) := by
  cases o with
  | train i =>
    obtain ⟨t, there⟩ := Option.isSome_iff_exists.mp live
    rw [State.abort_train quiescing there]
    refine ⟨rfl, fun m => ?_, fun l x h => ?_, s.fetch.lowered_waiting⟩
    · exact State.stageFinal_ring_eq (((s.leave (.train i)).dropTag (.train i)).setLine t.line
        ((s.line t.line).trainEnded i .aborted t.endPolicy)) t.ring m _
    · change x.SweptFrom ((endedTrain s i t .aborted (trainEndOf s t .aborted false t.repsDone)).line l)
      rw [endedTrain_line]
      split
      · rename_i same
        exact (same ▸ h).trainEnded i t.endPolicy
      · exact h
  | capture i =>
    obtain ⟨c, there⟩ := Option.isSome_iff_exists.mp live
    rw [State.abort_capture quiescing there]
    refine ⟨rfl, fun m => ?_, fun _ _ h => h, s.fetch.lowered_waiting⟩
    exact State.stageFinal_ring_eq ((s.leave (.capture i)).dropTag (.capture i)) c.ring m _
  | fence =>
    obtain ⟨f, waits⟩ := Option.isSome_iff_exists.mp live
    have fenced : s.fetch = .fenced f := by
      cases unit : s.fetch <;> rw [unit] at waits <;> cases waits
      rfl
    rw [State.abort_fence fenced]
    refine ⟨rfl, fun m => ?_, fun _ _ h => h, .inr ⟨?_, fun _ => rfl⟩⟩
    · exact State.stageFinal_ring_eq (s.leave .fence) f.ring m _
    · rw [waits]
      exact Option.some_ne_none f

/-! The finals -/

/-- The ABORTED final of a work in the sweep, with its ring, when `n` works have their turn before the fence. -/
def State.sweptFinal (s : State) (n : Nat) : Owner → Option (Fin 4 × Completion)
  | .train j => (s.train j).map fun u => (u.ring, trainEndOf s u .aborted false u.repsDone)
  | .capture j => (s.capture j).map fun c => (c.ring, captureEndOf s c .aborted)
  | .fence => s.fetch.waiting.map fun f => (f.ring, fenceEndOf s f.tag .aborted f.acceptedAt (f.count - n))

/-- The final, if it goes to ring `m`. -/
def finalOn (m : Fin 4) (x : Fin 4 × Completion) : Option Completion := if x.1 = m then some x.2 else none

theorem State.sweptRecords_eq (s : State) (m : Fin 4) : sweptRecords s m =
    (s.ring m).staged ++ (s.sweepOrder.filterMap (s.sweptFinal (s.sweepOrder.idxOf .fence))).filterMap (finalOn m) := by
  have same : abortedFinal s = s.sweptFinal (s.sweepOrder.idxOf .fence) := by
    funext o
    cases o <;> rfl
  rw [← same]
  rfl

theorem State.staged_stageFinal (s : State) (i m : Fin 4) (c : Completion) :
    ((s.stageFinal i c).ring m).staged = (s.ring m).staged ++ (finalOn m (i, c)).toList := by
  rw [State.ring_stageFinal, finalOn]
  by_cases here : i = m
  · subst i
    rw [if_pos rfl, if_pos rfl]
    rfl
  · rw [if_neg here, if_neg here]
    exact (List.append_nil _).symm

/-- A work's turn stages its final. -/
theorem State.abort_staged (quiescing : s.device = .quiescing) {o : Owner} (live : s.live o = true) (m : Fin 4) :
    ((s.abort o).ring m).staged = (s.ring m).staged ++ ((s.sweptFinal 0 o).bind (finalOn m)).toList := by
  cases o with
  | train i =>
    obtain ⟨t, there⟩ := Option.isSome_iff_exists.mp live
    rw [State.abort_train quiescing there, State.sweptFinal, there]
    exact State.staged_stageFinal (((s.leave (.train i)).dropTag (.train i)).setLine t.line
      ((s.line t.line).trainEnded i .aborted t.endPolicy)) ..
  | capture i =>
    obtain ⟨c, there⟩ := Option.isSome_iff_exists.mp live
    rw [State.abort_capture quiescing there, State.sweptFinal, there]
    exact State.staged_stageFinal ((s.leave (.capture i)).dropTag (.capture i)) ..
  | fence =>
    obtain ⟨f, waits⟩ := Option.isSome_iff_exists.mp live
    have fenced : s.fetch = .fenced f := by
      cases unit : s.fetch <;> rw [unit] at waits <;> cases waits
      rfl
    rw [State.abort_fence fenced, State.sweptFinal, waits]
    exact State.staged_stageFinal (s.leave .fence) ..

/-- The other finals are those that they were, the fence's for one work fewer (R141). -/
theorem State.abort_sweptFinal (quiescing : s.device = .quiescing) {o x : Owner} (live : s.live o = true)
    (other : x ≠ o) (n : Nat) : (s.abort o).sweptFinal n x = s.sweptFinal (n + 1) x := by
  have frame := (State.abort_sweepsTo quiescing live).frame
  have head : (s.abort o).head = s.head := (congrArg State.head frame :)
  have now : (s.abort o).deviceTime = s.deviceTime := (congrArg State.deviceTime frame :)
  cases x with
  | train j =>
    have there : (s.abort o).train j = s.train j := by
      cases o with
      | train i =>
        obtain ⟨t, there⟩ := Option.isSome_iff_exists.mp live
        rw [State.abort_train quiescing there]
        exact (endedTrain_train s i j t _ _).trans (if_neg fun same => other (congrArg Owner.train same.symm))
      | capture i =>
        obtain ⟨c, there⟩ := Option.isSome_iff_exists.mp live
        rw [State.abort_capture quiescing there]
        rfl
      | fence =>
        simp only [State.abort, State.abortFence]
        split <;> rfl
    simp only [State.sweptFinal, there, trainEndOf, head, now]
  | capture j =>
    have there : (s.abort o).capture j = s.capture j := by
      cases o with
      | train i =>
        obtain ⟨t, there⟩ := Option.isSome_iff_exists.mp live
        rw [State.abort_train quiescing there]
        rfl
      | capture i =>
        obtain ⟨c, there⟩ := Option.isSome_iff_exists.mp live
        rw [State.abort_capture quiescing there]
        exact State.capture_setCapture_of_ne (s.closeCapture i c .aborted) i j none
          fun same => other (congrArg Owner.capture same.symm)
      | fence =>
        simp only [State.abort, State.abortFence]
        split <;> rfl
    simp only [State.sweptFinal, there, captureEndOf, head, now]
  | fence =>
    have there : (s.abort o).fetch = s.fetch.lowered := by
      cases o with
      | train i =>
        obtain ⟨t, there⟩ := Option.isSome_iff_exists.mp live
        rw [State.abort_train quiescing there]
      | capture i =>
        obtain ⟨c, there⟩ := Option.isSome_iff_exists.mp live
        rw [State.abort_capture quiescing there]
      | fence => exact absurd rfl other
    rw [State.sweptFinal, there]
    cases unit : s.fetch with
    | fenced f =>
      simp only [State.sweptFinal, unit, Fetch.lowered, Fetch.waiting, Option.map_some, fenceEndOf, head, now,
        Nat.sub_sub, Nat.add_comm]
    | idle => simp only [State.sweptFinal, unit]; rfl
    | reading r => simp only [State.sweptFinal, unit]; rfl
    | stalled c t => simp only [State.sweptFinal, unit]; rfl

/-! All turns -/

theorem State.sweptFinal_of_ne_fence {x : Owner} (work : x ≠ .fence) (n k : Nat) :
    s.sweptFinal n x = s.sweptFinal k x := by
  cases x with
  | train j => rfl
  | capture j => rfl
  | fence => exact absurd rfl work

theorem State.foldl_abort_sweeps (l : List Owner) (once : l.Nodup) (live : ∀ o ∈ l, s.live o = true)
    (quiescing : s.device = .quiescing) :
    s.SweepsTo (l.foldl State.abort s)
      ∧ ∀ m, ((l.foldl State.abort s).ring m).staged =
        (s.ring m).staged ++ (l.filterMap (s.sweptFinal (l.idxOf .fence))).filterMap (finalOn m) := by
  induction l generalizing s with
  | nil => exact ⟨.refl s, fun m => (List.append_nil _).symm⟩
  | cons o l ih =>
    rw [List.nodup_cons] at once
    have here := live o List.mem_cons_self
    have others {x : Owner} (mem : x ∈ l) : x ≠ o := fun same => once.1 (same ▸ mem)
    obtain ⟨sweeps, staged⟩ := ih once.2 (fun x mem => by
      rw [State.abort_live quiescing, live x (List.mem_cons_of_mem _ mem), decide_eq_false (others mem)]
      rfl) (State.abort_device quiescing o)
    refine ⟨(State.abort_sweepsTo quiescing here).trans sweeps, fun m => ?_⟩
    have first : s.sweptFinal 0 o = s.sweptFinal ((o :: l).idxOf .fence) o := by
      by_cases fence : o = .fence
      · rw [fence, List.idxOf_cons_self]
      · exact State.sweptFinal_of_ne_fence fence _ _
    have rest : l.filterMap ((s.abort o).sweptFinal (l.idxOf .fence))
        = l.filterMap (s.sweptFinal ((o :: l).idxOf .fence)) := by
      refine List.filterMap_congr fun x mem => ?_
      rw [State.abort_sweptFinal quiescing here (others mem)]
      by_cases fence : x = .fence
      · rw [List.idxOf_cons_ne _ (fence ▸ (others mem).symm)]
      · exact State.sweptFinal_of_ne_fence fence _ _
    rw [List.foldl_cons, staged, State.abort_staged quiescing here, first, rest, List.append_assoc,
      List.filterMap_cons]
    cases s.sweptFinal ((o :: l).idxOf .fence) o with
    | none => rfl
    | some x =>
      rw [List.filterMap_cons, Option.bind_some]
      cases finalOn m x <;> rfl

/-! QUIESCE -/

/-- What a sweep leaves of the state that it starts from: no work, no place owed and no owner of a line; and each
ring's records with the finals. -/
structure State.Swept (s r : State) : Prop where
  sweeps   : s.SweepsTo r
  live     : ∀ o, r.live o = false
  calendar : r.calendar = []
  listed   : r.admission = []
  tagMap   : r.tagMap = []
  owed     : ∀ m, (r.ring m).owed = 0
  ownerless : ∀ l, (r.line l).owner = none ∧ (r.line l).successor = none
  staged   : ∀ m, (r.ring m).staged = sweptRecords s m

theorem State.swept_foldl (quiescing : s.device = .quiescing) (ledger : Law.ledger (.sweep []) s)
    (lines : s.LinesSound) : s.Swept (s.sweepOrder.foldl State.abort s) := by
  obtain ⟨⟨⟨⟨works, -⟩, -⟩, -⟩, entries⟩ := id ledger
  have once := State.sweepOrder_nodup works.1 entries.2.1
  have all {o : Owner} (mem : o ∈ s.sweepOrder) := Law.live_of_mem_sweepOrder works mem
  have none := Law.works_swept quiescing works
  obtain ⟨sweeps, staged⟩ := State.foldl_abort_sweeps s.sweepOrder once (fun _ mem => all mem) quiescing
  have kept := Moves.ledger.foldl_abort Law.loose_ledger rfl rfl s.sweepOrder once (fun _ mem => all mem) quiescing
    ledger
  obtain ⟨⟨⟨⟨works', tags'⟩, -⟩, accounts'⟩, -⟩ := kept
  obtain ⟨listed, calendar⟩ := Law.works_empty works' none
  have sound : (s.sweepOrder.foldl State.abort s).LinesSound :=
    Kept.lines.swept quiescing lines
  obtain ⟨trains, captures, -⟩ := State.noWork_iff.mpr none
  refine ⟨sweeps, none, calendar, listed, ?_, fun m => ?_, fun l => ?_, fun m => ?_⟩
  · refine List.eq_nil_iff_forall_not_mem.mpr fun ⟨g, w⟩ mem => ?_
    have named := (tags'.2.1 g w).mp mem
    cases w with
    | train i => simp [State.tagOf, trains] at named
    | capture i => simp [State.tagOf, captures] at named
  · rw [(accounts' m).1, State.worksOn_eq_zero none]
    rfl
  · obtain ⟨-, owner, successor, -⟩ := sound
    constructor
    · refine Option.eq_none_iff_forall_ne_some.mpr fun i owns => ?_
      obtain ⟨t, live, -⟩ := owner l i owns
      rw [trains] at live
      cases live
    · refine Option.eq_none_iff_forall_ne_some.mpr fun i follows => ?_
      obtain ⟨t, live, -⟩ := successor l i follows
      rw [trains] at live
      cases live
  · rw [staged, State.sweptRecords_eq]

/-- A line after the sweep, by whether it had an owner (R36, R38). -/
theorem Line.SweptFrom.rested {x y : Line} (h : x.SweptFrom y) (owner : y.owner = none) (successor : y.successor = none)
    (behind : x.owner = none → x.successor = none) :
    y = if x.owner = none then x else
      { x with present := .rest x.idle, owner := none, successor := none, modulator := none } := by
  obtain same | ⟨owned, same⟩ := h
  · have free : x.owner = none := by rwa [same] at owner
    rw [if_pos free, same, successor, ← behind free]
  · rw [if_neg owned, same, owner, successor]

/-- The unit after the sweep: a record that is held stays held (R189). -/
theorem State.SweepsTo.fetch_eq {r : State} (h : s.SweepsTo r) (read : s.fetch.outstanding = none)
    (free : r.fetch.waiting = none) : r.fetch = if s.holdsRecord then s.fetch else .idle := by
  obtain ⟨free', same⟩ | ⟨fenced, rests⟩ := h.fetch
  · rw [same]
    cases unit : s.fetch with
    | idle => simp [State.holdsRecord, unit]
    | reading r => rw [unit] at read; cases read
    | stalled c t => simp [State.holdsRecord, unit]
    | fenced f => rw [unit] at free'; cases free'
  · rw [rests free, if_neg]
    cases unit : s.fetch with
    | fenced f => simp [State.holdsRecord, unit]
    | idle => rw [unit] at fenced; exact absurd rfl fenced
    | reading r => rw [unit] at fenced; exact absurd rfl fenced
    | stalled c t => rw [unit] at fenced; exact absurd rfl fenced

end Sys2Proof.Machine
end

section
/-! PROOFS. QUIESCE in RUNNING (chapter 9): every work ends, and the drain is tested. -/

namespace Sys2Proof.Machine

set_option Elab.async false

variable {s : State}

/-- The test of the drain changes no work, and nothing of the clock, the lines and the configuration (R191). -/
theorem State.testDrain_frame (s : State) : s.testDrain = { s with
    closing := s.testDrain.closing, rings := s.testDrain.rings, fetch := s.testDrain.fetch
    device := s.testDrain.device, lastCause := s.testDrain.lastCause
    discardedCount := s.testDrain.discardedCount, commandDropped := s.testDrain.commandDropped
    quiesceElapsed := s.testDrain.quiesceElapsed } := by
  obtain ⟨-, -, e⟩ | ⟨-, e⟩ := s.testDrain_cases
  · rw [e]
    rfl
  · rw [e]

/-- What a quiesce finds and leaves: the clock, the inputs, the place in the stream and the configuration. -/
def State.setUp (s : State) : Time × Time × Vector InputLine 8 × Nat × Nat × BitVec 32 × Word × Word × Word × Word
    × Word × Word :=
  (s.deviceTime, s.timeCapture, s.inputs, s.head, s.tail, s.admissionCounter, s.sqBaseLo, s.sqBaseHi, s.sqSize,
    s.cr0BaseLo, s.cr0BaseHi, s.cr0Cfg)

/-- Where the sweep starts from, the works are accounted for as they were. -/
theorem State.ledger_sweeping (running : s.device = .running) (rings : s.RingsSound) (works : s.WorksSound)
    (tags : s.TagsSound) (accounts : s.AccountsSound) (entries : s.EntriesSound) :
    Law.ledger (.sweep []) s.sweeping := by
  have ledger : Law.ledger .rest s := ⟨⟨⟨⟨Law.works_rest.mpr works, Law.tags_rest.mpr tags⟩, rings⟩, accounts⟩,
    Law.entries_rest.mpr entries⟩
  obtain ⟨discarded, -⟩ := (Kept.account False).discardRead ⟨ledger, Law.chains_rest.mpr False.elim⟩
  exact (Moves.ledger.beginSweep (s.discardRead_device.trans running) s.discardRead_outstanding).run discarded

theorem State.linesSound_sweeping (lines : s.LinesSound) : s.sweeping.LinesSound := by
  have frame := s.discardRead_frame
  rw [State.sweeping, frame]
  exact lines

/-- The discard of a read and the state of the device change no final (R189). -/
theorem State.sweptRecords_sweeping (s : State) (m : Fin 4) : sweptRecords s.sweeping m = sweptRecords s m := by
  have waiting : s.sweeping.fetch.waiting = s.fetch.waiting := by
    rw [State.sweeping]
    unfold State.discardRead
    split
    · rename_i reads
      rw [reads]
      rfl
    · rfl
  have finals : abortedFinal s.sweeping = abortedFinal s := by
    funext o
    have frame := s.discardRead_frame
    cases o with
    | train j => rw [State.sweeping, frame]; rfl
    | capture j => rw [State.sweeping, frame]; rfl
    | fence =>
      simp only [abortedFinal, waiting]
      rw [State.sweeping, frame]
      rfl
  have frame := s.discardRead_frame
  rw [sweptRecords, sweptRecords, finals, State.sweeping, frame]
  rfl

/-- What QUIESCE makes of a RUNNING part, before the drain is tested. -/
theorem State.Swept.of_sweeping {r : State} (swept : s.sweeping.Swept r) (lines : s.LinesSound) :
    r.holdsRecord = s.holdsRecord ∧ r.fetch = (if s.holdsRecord then s.fetch else .idle)
      ∧ (∀ m, r.ring m = { s.ring m with staged := sweptRecords s m, owed := 0 })
      ∧ ∀ l, r.line l = if (s.line l).owner = none then s.line l else
        { s.line l with
          present := .rest (s.line l).idle, owner := none, successor := none, modulator := none } := by
  obtain ⟨-, -, free⟩ := State.noWork_iff.mpr swept.live
  have frame := s.discardRead_frame
  have held : s.sweeping.holdsRecord = s.holdsRecord := by
    rw [State.sweeping]
    unfold State.discardRead
    split
    · rename_i reads
      simp only [State.holdsRecord, reads]
    · rfl
  have fetch : r.fetch = if s.holdsRecord then s.fetch else .idle := by
    rw [swept.sweeps.fetch_eq s.discardRead_outstanding free, held]
    split
    · rename_i holds
      cases unit : s.fetch with
      | stalled c t => simp only [State.sweeping, State.discardRead, unit]
      | idle => simp [State.holdsRecord, unit] at holds
      | reading r => simp [State.holdsRecord, unit] at holds
      | fenced f => simp [State.holdsRecord, unit] at holds
    · rfl
  have ring (m : Fin 4) : s.sweeping.ring m = s.ring m := by
    rw [State.sweeping, frame]
    rfl
  have line (l : Fin 16) : s.sweeping.line l = s.line l := by
    rw [State.sweeping, frame]
    rfl
  refine ⟨?_, fetch, fun m => ?_, fun l => ?_⟩
  · rw [State.holdsRecord, fetch]
    cases unit : s.fetch <;> simp [State.holdsRecord, unit]
  · have stage := swept.staged m
    rw [State.sweptRecords_sweeping] at stage
    rw [swept.sweeps.ring, stage, swept.owed, ring]
  · have start : (s.line l).SweptFrom (s.sweeping.line l) := .inl (by rw [line])
    refine (swept.sweeps.line l _ start).rested (swept.ownerless l).1 (swept.ownerless l).2 fun ownerless => ?_
    obtain ⟨-, -, -, behind, -⟩ := lines
    by_contra follows
    exact (behind l follows).1 ownerless

/-- Settles O29: the sweep has one turn for each live work, and the drain is tested after it. -/
theorem quiesceEndsEveryWork : Obligations.QuiesceEndsEveryWork := by
  intro s listens running rings works tags accounts entries lines
  have swept := State.swept_foldl (s := s.sweeping) rfl
    (State.ledger_sweeping running rings works tags accounts entries) (State.linesSound_sweeping lines)
  obtain ⟨held, fetch, ring, line⟩ := swept.of_sweeping lines
  obtain ⟨trains, captures, free⟩ := State.noWork_iff.mpr swept.live
  have result : exec .quiesce s = .next (s.sweeping.sweepOrder.foldl State.abort s.sweeping).testDrain :=
    exec_quiesce_of_running listens running
  have start : s.sweeping = { s with
      fetch := s.sweeping.fetch, discardedReads := s.sweeping.discardedReads
      heldEvents := s.sweeping.heldEvents, device := .quiescing, quiesceElapsed := 0 } := by
    have frame := s.discardRead_frame
    rw [State.sweeping, frame]
  have sweep := swept.sweeps.frame
  generalize s.sweeping.sweepOrder.foldl State.abort s.sweeping = r at *
  rw [start] at sweep
  have device : r.device = .quiescing := (congrArg State.device sweep :)
  have drain := r.testDrain_frame
  have staged : (∀ m, (r.ring m).staged = []) ↔ ∀ m, sweptRecords s m = [] :=
    forall_congr' fun m => by rw [ring]
  have off (none : ∀ m, sweptRecords s m = []) (free : s.holdsRecord = false) :
      r.testDrain = r.toOff .quiesced 0 false :=
    State.testDrain_of_drained device (staged.mpr none) (held.trans free)
  have stays (some : ¬((∀ m, sweptRecords s m = []) ∧ s.holdsRecord = false)) : r.testDrain = r :=
    State.testDrain_of_not_drained fun drained => some ⟨staged.mp drained.1, held.symm.trans drained.2⟩
  have undefined (m : Fin 4) : (r.toOff .quiesced 0 false).ring m = Ring.undefined := Vector.getElem_replicate ..
  have unfenced : r.testDrain.fetch.waiting = none ∧ ∀ m, (r.testDrain.ring m).owed = 0 := by
    by_cases drained : (∀ m, sweptRecords s m = []) ∧ s.holdsRecord = false
    · rw [off drained.1 drained.2]
      exact ⟨rfl, fun m => by rw [undefined]; rfl⟩
    · rw [stays drained]
      exact ⟨free, swept.owed⟩
  have train (i : Fin 32) : r.testDrain.train i = none := (congrArg (State.train · i) drain).trans (trains i)
  have capture (i : Fin 16) : r.testDrain.capture i = none :=
    (congrArg (State.capture · i) drain).trans (captures i)
  refine ⟨_, result, ⟨train, capture, unfenced.1⟩, (congrArg State.calendar drain).trans swept.calendar,
    (congrArg State.admission drain).trans swept.listed, (congrArg State.tagMap drain).trans swept.tagMap,
    unfenced.2, fun l => ?_, fun some => ?_, fun none free => ?_, ?_⟩
  · refine ((congrArg (State.line · l) drain).trans (line l)).trans ?_
    by_cases ownerless : (s.line l).owner = none
    · rw [if_pos ownerless, if_pos ownerless]
    · rw [if_neg ownerless, if_neg ownerless]
      exact congrArg (fun v => { s.line l with present := v, owner := none, successor := none, modulator := none })
        (LineLevel.rest_eq _)
  · have holds : ¬((∀ m, sweptRecords s m = []) ∧ s.holdsRecord = false) := fun ⟨empty, free⟩ => by
      obtain ⟨m, staged⟩ | held := some
      · exact staged (empty m)
      · rw [held] at free
        cases free
    rw [stays holds]
    exact ⟨device, (congrArg State.quiesceElapsed sweep :), (congrArg State.lastCause sweep :), fetch, ring⟩
  · rw [off none free]
    exact ⟨rfl, rfl, rfl, rfl, rfl, undefined⟩
  · have tested : r.testDrain.setUp = r.setUp := (congrArg State.setUp drain :)
    have kept : r.setUp = s.setUp := (congrArg State.setUp sweep :)
    simpa only [State.setUp, Prod.mk.injEq] using tested.trans kept

end Sys2Proof.Machine
end

section
/-! PROOFS. The order of a cascade is depth first (R111). -/

namespace Sys2Proof.Machine

set_option Elab.async false

variable {s : State}

/-! Trees of waiters -/

/-- Of two trains that a third hangs below, the nearer hangs below the farther. -/
theorem State.Ordered.chain_between (o : s.Ordered) {d e : Nat} {a b x : Fin 32} (ha : s.Chain d a x)
    (hb : s.Chain (d + e) b x) : s.Chain e b a := by
  induction d generalizing x with
  | zero =>
    obtain rfl : a = x := ha
    rwa [Nat.zero_add] at hb
  | succ d ih =>
    rw [Nat.add_right_comm] at hb
    obtain ⟨k, t, live, waits, chain⟩ := ha
    obtain ⟨k', t', live', waits', chain'⟩ := hb
    obtain rfl := o.unique k k' t t' live live' (WaitsOn.tag_unique waits waits')
    exact ih chain chain'

/-- The train of slot `x` is that of slot `a`, or hangs below it. -/
def State.Tree (s : State) (a x : Fin 32) : Prop := ∃ d, s.Chain d a x

theorem State.inTreeOf_iff {a x : Fin 32} : InTreeOf s a x ↔ s.Tree a x := by
  constructor
  · rintro (rfl | ⟨u, live, below⟩)
    · exact ⟨0, rfl⟩
    · obtain ⟨b, d, waits, chain⟩ := State.below_iff.mp below
      exact ⟨1 + d, (State.Chain.one live waits).trans chain⟩
  · rintro ⟨d, chain⟩
    cases d with
    | zero => exact .inl (Eq.symm chain)
    | succ d =>
      obtain ⟨t, b, live, waits, chain'⟩ := chain.split
      exact .inr ⟨t, live, State.below_iff.mpr ⟨b, d, waits, chain'⟩⟩

theorem State.Tree.trans {a b c : Fin 32} (ab : s.Tree a b) (bc : s.Tree b c) : s.Tree a c := by
  obtain ⟨d, ab⟩ := ab
  obtain ⟨e, bc⟩ := bc
  exact ⟨d + e, ab.trans bc⟩

/-- Of two trees that share a train, one holds the other. -/
theorem State.Ordered.tree_total (o : s.Ordered) {a b x : Fin 32} (ha : s.Tree a x) (hb : s.Tree b x) :
    s.Tree a b ∨ s.Tree b a := by
  obtain ⟨d, ha⟩ := ha
  obtain ⟨e, hb⟩ := hb
  obtain le | le := le_total d e
  · obtain ⟨n, rfl⟩ := Nat.exists_eq_add_of_le le
    exact .inr ⟨n, o.chain_between ha hb⟩
  · obtain ⟨n, rfl⟩ := Nat.exists_eq_add_of_le le
    exact .inl ⟨n, o.chain_between hb ha⟩

/-- A tree that holds a train, below its root, holds the trains that wait on the same end. -/
theorem State.Tree.sibling {a b c : Fin 32} {g : Tag} (hb : WaitsOn s g b) (hc : WaitsOn s g c)
    (tree : s.Tree a b) : a = b ∨ s.Tree a c := by
  obtain ⟨d, chain⟩ := tree
  cases d with
  | zero => exact .inl chain
  | succ d =>
    obtain ⟨k, t, live, waits, chain⟩ := chain
    obtain rfl := WaitsOn.tag_unique hb waits
    exact .inr ⟨d + 1, k, t, live, hc, chain⟩

/-- Where chains run from older to younger, every tag is the root of its waiters. -/
theorem State.Ordered.rooted_of_chains (o : s.Ordered) (chains : s.ChainsSound) {g : Tag} : s.Rooted g := by
  intro a b j d e ha hb ca cb
  obtain ⟨u, there, waiting, meets⟩ := id ha
  cases start : u.start with
  | afterEnd g' offset =>
    rw [start] at meets
    obtain rfl : g' = g := by simpa [StartCondition.onEnd] using meets
    obtain ⟨p, t, live, rfl, -⟩ := chains a u there waiting _ offset start
    exact o.rooted live (o.not_below_self chains live) a b j d e ha hb ca cb
  | atTime => rw [start] at meets; cases meets
  | now => rw [start] at meets; cases meets
  | afterEdge => rw [start] at meets; cases meets

/-- The trees of two trains that wait on one end share no train. -/
theorem State.Ordered.trees_apart (o : s.Ordered) (chains : s.ChainsSound) {g : Tag} {a b x : Fin 32}
    (ha : WaitsOn s g a) (hb : WaitsOn s g b) (ta : s.Tree a x) (tb : s.Tree b x) : a = b := by
  obtain ⟨d, ca⟩ := ta
  obtain ⟨e, cb⟩ := tb
  obtain rfl := o.rooted_of_chains chains a b x d e ha hb ca cb
  exact o.chain_first ca cb

/-- A train's tree holds no train that it waits on. -/
theorem State.Ordered.tree_one_way (o : s.Ordered) (chains : s.ChainsSound) {x y : Fin 32} {u : Train}
    (live : s.train x = some u) (waits : WaitsOn s u.tag y) : ¬s.Tree y x := by
  rintro ⟨d, chain⟩
  have := o.rooted_of_chains chains y y y 0 (d + 1) waits waits rfl ⟨x, u, live, waits, chain⟩
  omega

/-! Depth first -/

/-- How two trains stand in an order that is depth first. -/
def State.Before (s : State) (x y : Fin 32) : Prop :=
  (∀ u, s.train x = some u → ¬WaitsOn s u.tag y)
    ∧ ∀ g a b, WaitsOn s g a → WaitsOn s g b → s.rank (.train a) < s.rank (.train b) →
      InTreeOf s b x → ¬InTreeOf s a y

/-- The waiters stand oldest first. -/
theorem State.Ordered.waiters_rank (o : s.Ordered) (g : Tag) :
    (s.waiters (StartCondition.onEnd g)).Pairwise fun a b => s.rank (.train a) < s.rank (.train b) := by
  have sorted : s.admission.Pairwise fun a b => s.rank a < s.rank b := by
    refine List.pairwise_iff_getElem.mpr fun i j hi hj less => ?_
    rwa [State.rank, State.rank, o.once.idxOf_getElem, o.once.idxOf_getElem]
  rw [State.waiters_eq, oldestWaiting_eq]
  refine List.Pairwise.filterMap _ (fun x y less a ha b hb => ?_) sorted
  obtain ⟨rfl, -⟩ := State.waiterAt_eq_some.mp ha
  obtain ⟨rfl, -⟩ := State.waiterAt_eq_some.mp hb
  exact less

section
variable (o : s.Ordered) (chains : s.ChainsSound) {g : Tag}
include o

theorem State.Ordered.tree_of_mem {n : Nat} {i x : Fin 32} (mem : x ∈ s.cascadeBelow n i ++ [i]) : s.Tree i x := by
  obtain below | self := List.mem_append.mp mem
  · unfold State.cascadeBelow at below
    split at below
    · rename_i t live
      obtain ⟨b, d, -, waits, chain⟩ := o.mem_cascadeOrder.mp below
      exact ⟨1 + d, (State.Chain.one live waits).trans chain⟩
    · cases below
  · exact ⟨0, (List.mem_singleton.mp self).symm⟩

include chains

/-- A train stands behind those of its tree. -/
theorem State.Ordered.before_root {i x : Fin 32} (tree : s.Tree i x) : s.Before x i := by
  refine ⟨fun u live waits => o.tree_one_way chains live waits tree, fun g a b ha hb older tb ta => ?_⟩
  rw [State.inTreeOf_iff] at ta tb
  obtain rfl := o.trees_apart chains ha hb (ta.trans tree) tb
  exact lt_irrefl _ older

/-- Of two that wait on one end, the younger's tree stands behind the older's. -/
theorem State.Ordered.before_younger {p q x y : Fin 32} (hp : WaitsOn s g p) (hq : WaitsOn s g q)
    (rank : s.rank (.train p) < s.rank (.train q)) (tp : s.Tree p x) (tq : s.Tree q y) : s.Before x y := by
  have apart {z : Fin 32} (zp : s.Tree p z) (zq : s.Tree q z) : False := by
    obtain rfl := o.trees_apart chains hp hq zp zq
    exact lt_irrefl _ rank
  refine ⟨fun u live waits => apart (tp.trans ⟨1, State.Chain.one live waits⟩) tq, fun g' a b ha hb older tb ta => ?_⟩
  rw [State.inTreeOf_iff] at ta tb
  have apart' {z : Fin 32} (za : s.Tree a z) (zb : s.Tree b z) : False := by
    obtain rfl := o.trees_apart chains ha hb za zb
    exact lt_irrefl _ older
  have same (eq : p = b) : False := by
    subst eq
    obtain rfl := WaitsOn.tag_unique hp hb
    obtain rfl := o.trees_apart chains hq ha tq ta
    exact lt_asymm rank older
  obtain farther | nearer := o.tree_total tp tb
  · obtain eq | farther := farther.sibling hb ha
    · exact same eq
    · exact apart (farther.trans ta) tq
  · obtain eq | nearer := nearer.sibling hp hq
    · exact same eq.symm
    · exact apart' ta (nearer.trans tq)

theorem State.Ordered.depthFirst_cascadeOrder (n : Nat) : DepthFirst s (s.cascadeOrder n g) := by
  change (s.cascadeOrder n g).Pairwise s.Before
  induction n generalizing g with
  | zero => exact List.Pairwise.nil
  | succ n ih =>
    rw [State.cascadeOrder_succ, List.pairwise_flatMap]
    refine ⟨fun i mem => List.pairwise_append.mpr ⟨?_, List.pairwise_singleton .., fun x hx y hy => ?_⟩,
      (o.waiters_rank g).imp_of_mem fun {a b} ha hb rank x hx y hy => ?_⟩
    · unfold State.cascadeBelow
      split
      · exact ih
      · exact List.Pairwise.nil
    · obtain rfl := List.mem_singleton.mp hy
      exact o.before_root chains (o.tree_of_mem (List.mem_append_left _ hx))
    · exact o.before_younger chains (o.mem_waiters.mp ha) (o.mem_waiters.mp hb) rank (o.tree_of_mem hx)
        (o.tree_of_mem hy)

end

end Sys2Proof.Machine
end

section
/-! PROOFS. The ends of a cascade (R111): what closing one train after another leaves, table by table, and what the
reports to a waiting fence add to it. -/

namespace Sys2Proof.Machine

set_option Elab.async false

variable {s : State}

/-! One train after another -/

/-- The train of slot `j` closed, with the final that `final` gives it. -/
def State.closeAs (final : Fin 32 → Train → Completion) (s : State) (j : Fin 32) : State :=
  match s.train j with
  | some u => endedTrain s j u (final j u).status (final j u)
  | none => s

/-- The final of the train of slot `j`, if it goes to ring `m`. -/
def State.finalOf (s : State) (final : Fin 32 → Train → Completion) (m : Fin 4) (j : Fin 32) : Option Completion :=
  (s.train j).bind fun u => if u.ring = m then some (final j u) else none

/-- Line `l`, when it is `x`, after the end of the train of slot `j`. -/
def State.lineAfter (s : State) (final : Fin 32 → Train → Completion) (l : Fin 16) (x : Line) (j : Fin 32) : Line :=
  match s.train j with
  | some u => if u.line = l then x.trainEnded j (final j u).status u.endPolicy else x
  | none => x

/-- The work is none of the trains in these slots. -/
def staysWith (ended : List (Fin 32)) (o : Owner) : Bool := !(ended.any fun j => decide (o = .train j))

/-- `r` is `s` with the trains in the slots `ended` closed, one after another. -/
structure State.ClosesTo (s : State) (ended : List (Fin 32)) (final : Fin 32 → Train → Completion) (r : State) :
    Prop where
  train     : ∀ j, r.train j = if j ∈ ended then none else s.train j
  ring      : ∀ m, r.ring m = { s.ring m with
    staged := (s.ring m).staged ++ ended.filterMap (s.finalOf final m)
    owed := (s.ring m).owed - ended.countP fun j => Train.owes m (s.train j) }
  line      : ∀ l, r.line l = ended.foldl (s.lineAfter final l) (s.line l)
  admission : r.admission = s.admission.filter (staysWith ended)
  tagMap    : r.tagMap = s.tagMap.filter fun e => !(ended.any fun j => decide (e.2 = .train j))
  calendar  : r.calendar = s.calendar.filter fun e => staysWith ended e.owner
  frame     : r = { s with
    trains := r.trains, rings := r.rings, lines := r.lines, admission := r.admission
    tagMap := r.tagMap, calendar := r.calendar }

theorem staysWith_cons (j : Fin 32) (l : List (Fin 32)) (o : Owner) :
    staysWith (j :: l) o = (staysWith l o && !decide (o = .train j)) := by
  rw [staysWith, staysWith, List.any_cons, Bool.not_or, Bool.and_comm]

theorem State.closesTo_foldl (final : Fin 32 → Train → Completion) (l : List (Fin 32)) (once : l.Nodup)
    (live : ∀ j ∈ l, s.train j ≠ none) : s.ClosesTo l final (l.foldl (State.closeAs final) s) := by
  induction l generalizing s with
  | nil =>
    exact ⟨fun _ => rfl, fun m => by simp, fun _ => rfl, (List.filter_eq_self.mpr fun _ _ => rfl).symm,
      (List.filter_eq_self.mpr fun _ _ => rfl).symm, (List.filter_eq_self.mpr fun _ _ => rfl).symm, rfl⟩
  | cons j l ih =>
    rw [List.nodup_cons] at once
    obtain ⟨u, there⟩ := Option.ne_none_iff_exists'.mp (live j List.mem_cons_self)
    have closed : s.closeAs final j = endedTrain s j u (final j u).status (final j u) := by
      simp only [State.closeAs, there]
    have other {i : Fin 32} (mem : i ∈ l) : (s.closeAs final j).train i = s.train i := by
      have apart : j ≠ i := fun same => once.1 (same ▸ mem)
      rw [closed, endedTrain_train, if_neg apart]
    have rest := ih once.2 fun i mem => by
      rw [other mem]
      exact live i (List.mem_cons_of_mem _ mem)
    rw [List.foldl_cons]
    refine ⟨fun i => ?_, fun m => ?_, fun x => ?_, ?_, ?_, ?_, ?_⟩
    · rw [rest.train, closed, endedTrain_train]
      by_cases self : i = j
      · simp [self]
      · simp [self, Ne.symm self]
    · have finals : l.filterMap ((s.closeAs final j).finalOf final m) = l.filterMap (s.finalOf final m) :=
        List.filterMap_congr fun i mem => by rw [State.finalOf, State.finalOf, other mem]
      have owes : (l.countP fun i => Train.owes m ((s.closeAs final j).train i))
          = l.countP fun i => Train.owes m (s.train i) := List.countP_congr fun i mem => by rw [other mem]
      have final_j : s.finalOf final m j = if u.ring = m then some (final j u) else none := by
        rw [State.finalOf, there]
        rfl
      have owes_j : Train.owes m (s.train j) = decide (u.ring = m) := by rw [there]; rfl
      rw [rest.ring, finals, owes, closed, endedTrain_ring, List.filterMap_cons, List.countP_cons, final_j, owes_j]
      by_cases here : u.ring = m
      · subst here
        simp only [if_true, decide_true, List.append_assoc, List.singleton_append, Nat.sub_sub, Nat.add_comm]
      · simp only [if_neg here, decide_eq_false here, Bool.false_eq_true, if_false, Nat.add_zero]
    · have lines (y : Line) : l.foldl ((s.closeAs final j).lineAfter final x) y = l.foldl (s.lineAfter final x) y := by
        refine List.foldl_ext _ _ y fun z i mem => ?_
        rw [State.lineAfter, State.lineAfter, other mem]
      have line_j : s.lineAfter final x (s.line x) j = (s.closeAs final j).line x := by
        rw [closed, endedTrain_line, State.lineAfter, there]
        by_cases here : u.line = x
        · subst here
          rfl
        · simp only [if_neg here]
      rw [rest.line, lines, List.foldl_cons, line_j]
    · rw [rest.admission, closed]
      refine (List.filter_filter ..).trans (List.filter_congr fun o _ => ?_)
      rw [staysWith_cons]
    · rw [rest.tagMap, closed]
      refine (List.filter_filter ..).trans (List.filter_congr fun e _ => ?_)
      rw [List.any_cons, Bool.not_or, Bool.and_comm]
    · rw [rest.calendar, closed]
      refine (List.filter_filter ..).trans (List.filter_congr fun e _ => ?_)
      rw [staysWith_cons]
    · have frame := rest.frame
      rw [frame, closed]
      rfl

end Sys2Proof.Machine
end

section
/-! PROOFS. The ends of a cascade and the fence (R111, R138): each end is reported, and the last that a waiting fence
counts ends it. -/

namespace Sys2Proof.Machine

set_option Elab.async false

variable {s : State}

/-! The reports of several ends -/

/-- The unit after `n` ends have been reported, which leave a fence that waits waiting. -/
def Fetch.told (n : Nat) : Fetch → Fetch
  | .fenced f => .fenced { f with count := f.count - n }
  | other => other

theorem Fetch.told_told (f : Fetch) (n k : Nat) : (f.told n).told k = f.told (n + k) := by
  cases f with
  | fenced f => simp only [Fetch.told, Nat.sub_sub]
  | idle => rfl
  | reading r => rfl
  | stalled c t => rfl

theorem Fetch.told_zero (f : Fetch) : f.told 0 = f := by
  cases f <;> rfl

/-- The state with `n` ends reported at once: the fence that counted no more has ended. -/
def State.toldOf (s : State) (n : Nat) : State :=
  match s.fetch with
  | .fenced f =>
    if f.count ≤ n then
      { (s.leave .fence).stageFinal f.ring (fenceEndOf s f.tag .ok f.acceptedAt 0) with fetch := .idle }
    else { s with fetch := .fenced { f with count := f.count - n } }
  | _ => s

/-- An end that is not the last lowers the count (R138). -/
theorem State.reportEnd_of_more (more : ∀ f ∈ s.fetch.waiting, 1 < f.count) :
    s.reportEnd = { s with fetch := s.fetch.told 1 } := by
  obtain ⟨free, e⟩ | ⟨f, waits, last, -⟩ | ⟨f, waits, -, e⟩ := s.reportEnd_cases
  · have same : s.fetch.told 1 = s.fetch := by
      unfold Fetch.told
      split
      · rename_i f waits
        exact absurd waits (free f)
      · rfl
    rw [e, same]
  · have := more f (by rw [waits]; rfl)
    omega
  · rw [e, waits]
    rfl

theorem State.toldOf_of_free (free : s.fetch.waiting = none) (n : Nat) : s.toldOf n = s := by
  unfold State.toldOf
  split
  · rename_i f waits
    rw [waits] at free
    cases free
  · rfl

theorem State.toldOf_of_last {f : Fence} {n : Nat} (waits : s.fetch = .fenced f) (last : f.count ≤ n) :
    s.toldOf n =
      { (s.leave .fence).stageFinal f.ring (fenceEndOf s f.tag .ok f.acceptedAt 0) with fetch := .idle } := by
  simp only [State.toldOf, waits, if_pos last]

theorem State.toldOf_of_more {f : Fence} {n : Nat} (waits : s.fetch = .fenced f) (more : ¬f.count ≤ n) :
    s.toldOf n = { s with fetch := .fenced { f with count := f.count - n } } := by
  simp only [State.toldOf, waits, if_neg more]

/-- The last of several reports, in RUNNING (R138). -/
theorem State.reportEnd_of_last (n : Nat) (running : s.device = .running)
    (most : ∀ f ∈ s.fetch.waiting, n + 1 ≤ f.count) :
    ({ s with fetch := s.fetch.told n } : State).reportEnd =
      if s.fetch.waiting.isSome ∧ (s.toldOf (n + 1)).fetch = .idle then (s.toldOf (n + 1)).issueRead
      else s.toldOf (n + 1) := by
  by_cases free : s.fetch.waiting = none
  · have same : s.fetch.told n = s.fetch := by
      unfold Fetch.told
      split
      · rename_i f waits
        rw [waits] at free
        cases free
      · rfl
    rw [same, State.toldOf_of_free free, if_neg (by simp [free])]
    exact State.reportEnd_of_unfenced free
  · obtain ⟨f, waits⟩ : ∃ f, s.fetch = .fenced f := by
      cases unit : s.fetch with
      | fenced f => exact ⟨f, rfl⟩
      | idle => rw [unit] at free; exact absurd rfl free
      | reading r => rw [unit] at free; exact absurd rfl free
      | stalled c t => rw [unit] at free; exact absurd rfl free
    have some := most f (by rw [waits]; rfl)
    rw [State.reportEnd_eq, waits]
    by_cases last : f.count ≤ n + 1
    · rw [State.toldOf_of_last waits last, if_pos ⟨rfl, rfl⟩]
      exact if_pos ⟨Nat.sub_le_of_le_add (Nat.add_comm n 1 ▸ last), running⟩
    · rw [State.toldOf_of_more waits last, if_neg fun both => nomatch both.2]
      simp only [Nat.sub_add_eq]
      refine if_neg fun both => last ?_
      have one : f.count - n ≤ 1 := both.1
      omega

/-! The ends themselves -/

section
variable {final : Fin 32 → Train → Completion}

/-- An end reads no fence. -/
theorem State.closeAs_fetch (s : State) (f : Fetch) (j : Fin 32) :
    ({ s with fetch := f } : State).closeAs final j = { s.closeAs final j with fetch := f } := by
  unfold State.closeAs
  rw [show ({ s with fetch := f } : State).train j = s.train j from rfl]
  split <;> rfl

theorem State.foldl_closeAs_fetch (l : List (Fin 32)) (s : State) (f : Fetch) :
    l.foldl (State.closeAs final) { s with fetch := f } = { l.foldl (State.closeAs final) s with fetch := f } := by
  induction l generalizing s with
  | nil => rfl
  | cons j l ih => rw [List.foldl_cons, State.closeAs_fetch, ih, List.foldl_cons]

/-- Ends change works, lines and rings only. -/
theorem State.endedFrom_closeAs (s : State) (j : Fin 32) : EndedFrom s (s.closeAs final j) := by
  unfold State.closeAs
  split
  · exact endedFrom_endedTrain ..
  · exact .refl s

theorem State.endedFrom_foldl_closeAs (l : List (Fin 32)) (s : State) :
    EndedFrom s (l.foldl (State.closeAs final) s) := by
  induction l generalizing s with
  | nil => exact .refl s
  | cons j l ih => exact (s.endedFrom_closeAs j).trans (ih (s.closeAs final j))

theorem State.train_foldl_closeAs {k : Fin 32} (l : List (Fin 32)) (s : State) (out : k ∉ l) :
    (l.foldl (State.closeAs final) s).train k = s.train k := by
  induction l generalizing s with
  | nil => rfl
  | cons j l ih =>
    rw [List.mem_cons, not_or] at out
    rw [List.foldl_cons, ih (s.closeAs final j) out.2]
    unfold State.closeAs
    split
    · rw [endedTrain_train, if_neg (Ne.symm out.1)]
    · rfl

theorem EndedFrom.device {t : State} (h : EndedFrom s t) : t.device = s.device := (congrArg State.device h.1 :)

theorem trainEndOf_congr {t : State} (head : t.head = s.head) (now : t.deviceTime = s.deviceTime) (u : Train)
    (st : Status) (cascaded : Bool) (n : Nat) : trainEndOf t u st cascaded n = trainEndOf s u st cascaded n := by
  simp only [trainEndOf, head, now]

/-- An end whose final is that of its status (R56). -/
theorem State.closeTrain_eq_closeAs {j : Fin 32} {st : Status} {cascaded : Bool}
    (finals : ∀ u ∈ s.train j, final j u = trainEndOf s u st cascaded u.repsDone) :
    s.closeTrain j st cascaded = s.closeAs final j := by
  unfold State.closeAs
  split
  · rename_i u live
    rw [State.closeTrain_of_train live, finals u live]
    rfl
  · rename_i free
    simp only [State.closeTrain, free]

/-- The ends before the last, each reported (R111, R138). -/
theorem State.foldl_endCascaded_eq (l : List (Fin 32)) (s : State) (more : ∀ f ∈ s.fetch.waiting, l.length < f.count)
    (finals : ∀ j ∈ l, ∀ u, final j u = trainEndOf s u .cancelled true u.repsDone) :
    l.foldl State.endCascaded s = { l.foldl (State.closeAs final) s with fetch := s.fetch.told l.length } := by
  induction l generalizing s with
  | nil => rw [List.length_nil, Fetch.told_zero]; rfl
  | cons j l ih =>
    have frame := s.endedFrom_closeAs (final := final) j
    have fetch := frame.fetch
    have ended : s.endCascaded j = { s.closeAs final j with fetch := s.fetch.told 1 } := by
      rw [State.endCascaded, State.closeTrain_eq_closeAs fun u _ => finals j List.mem_cons_self u,
        State.reportEnd_of_more (by
          rw [fetch]
          intro f waits
          have := more f waits
          rw [List.length_cons] at this
          omega), fetch]
    rw [List.foldl_cons, ended, ih, State.foldl_closeAs_fetch, Fetch.told_told, List.foldl_cons, List.length_cons,
      Nat.add_comm]
    · intro f waits
      cases unit : s.fetch with
      | fenced g =>
        have := more g (by rw [unit]; rfl)
        rw [unit] at waits
        cases waits
        rw [List.length_cons] at this
        change l.length < g.count - 1
        omega
      | idle => rw [unit] at waits; cases waits
      | reading r => rw [unit] at waits; cases waits
      | stalled c t => rw [unit] at waits; cases waits
    · intro i mem u
      rw [finals i (List.mem_cons_of_mem _ mem) u]
      exact (trainEndOf_congr frame.head frame.deviceTime u _ _ _).symm

/-- An end in cascade, in RUNNING: all the ends, and their reports at once (R111, R138). -/
theorem State.endTrainCascade_eq {k : Fin 32} {t : Train} {st : Status} (live : s.train k = some t)
    (out : k ∉ s.cascadeOrder 32 t.tag) (running : s.device = .running)
    (most : ∀ f ∈ s.fetch.waiting, (s.cascadeOrder 32 t.tag ++ [k]).length ≤ f.count)
    (finals : ∀ j u, final j u = if j = k then trainEndOf s t st false t.repsDone
      else trainEndOf s u .cancelled true u.repsDone) :
    s.endTrainCascade k st =
      let r := ((s.cascadeOrder 32 t.tag ++ [k]).foldl (State.closeAs final) s).toldOf
        (s.cascadeOrder 32 t.tag ++ [k]).length
      if s.fetch.waiting.isSome ∧ r.fetch = .idle then r.issueRead else r := by
  generalize ends : s.cascadeOrder 32 t.tag = l at *
  have below : l.foldl State.endCascaded s
      = { l.foldl (State.closeAs final) s with fetch := s.fetch.told l.length } := by
    refine State.foldl_endCascaded_eq l s (fun f waits => ?_) fun j mem u => ?_
    · have := most f waits
      rw [List.length_append, List.length_singleton] at this
      omega
    · rw [finals, if_neg fun same : j = k => out (same ▸ mem)]
  have last : (l.foldl State.endCascaded s).closeTrain k st false
      = { (l ++ [k]).foldl (State.closeAs final) s with fetch := s.fetch.told l.length } := by
    have frame := State.endedFrom_foldl_closeAs (final := final) l s
    rw [below, State.closeTrain_eq_closeAs (final := final), State.closeAs_fetch, List.foldl_append, List.foldl_cons,
      List.foldl_nil]
    intro u there
    have same : (l.foldl (State.closeAs final) s).train k = some t := (State.train_foldl_closeAs l s out).trans live
    obtain rfl := Option.some.inj (same.symm.trans there)
    rw [finals, if_pos rfl]
    exact (trainEndOf_congr frame.head frame.deviceTime ..).symm
  have all := State.endedFrom_foldl_closeAs (final := final) (l ++ [k]) s
  have told := State.reportEnd_of_last l.length (all.device.trans running) (by
    rw [all.fetch]
    simpa only [List.length_append, List.length_singleton] using most)
  rw [all.fetch] at told
  simp only [State.endTrainCascade, live, ends, last, told, List.length_append, List.length_singleton]

end

end Sys2Proof.Machine
end

section
/-! PROOFS. The end in cascade, as the claim states it (R111, R112). -/

namespace Sys2Proof.Machine

set_option Elab.async false

variable {s : State}

/-! The tables of an end in cascade -/

/-- The fence that the ends were the last of `n` works for, if one waits (R138). -/
def State.fenceOver (s : State) (n : Nat) : Option Fence := s.fetch.waiting.filter fun f => decide (f.count ≤ n)

/-- The unit after `n` ends (R138). -/
def Fetch.after (n : Nat) : Fetch → Fetch
  | .fenced f => if f.count ≤ n then .idle else .fenced { f with count := f.count - n }
  | other => other

/-- The work is none of the trains in these slots, and not a fence that has ended. -/
def staysAfter (ended : List (Fin 32)) (fence : Option Fence) (o : Owner) : Bool :=
  staysWith ended o && !(fence.isSome && decide (o = .fence))

/-- `r` is `s` with the trains in the slots `ended` closed, and their ends reported. -/
structure State.EndsTo (s : State) (ended : List (Fin 32)) (final : Fin 32 → Train → Completion) (r : State) :
    Prop where
  train : ∀ j, r.train j = if j ∈ ended then none else s.train j
  ring  : ∀ m, r.ring m = { s.ring m with
    staged := (s.ring m).staged ++ ended.filterMap (s.finalOf final m)
      ++ (s.fenceOver ended.length).toList.filterMap fun f =>
        if f.ring = m then some (fenceEndOf s f.tag .ok f.acceptedAt 0) else none
    owed := (s.ring m).owed - (ended.countP fun j => Train.owes m (s.train j))
      - (s.fenceOver ended.length).toList.countP fun f => decide (f.ring = m) }
  line  : ∀ l, r.line l = ended.foldl (s.lineAfter final l) (s.line l)
  frame : r = { s with
    trains := r.trains, rings := r.rings, lines := r.lines
    admission := s.admission.filter (staysAfter ended (s.fenceOver ended.length))
    tagMap := s.tagMap.filter fun e => !(ended.any fun j => decide (e.2 = .train j))
    calendar := s.calendar.filter fun e => staysAfter ended (s.fenceOver ended.length) e.owner
    fetch := s.fetch.after ended.length }

theorem staysAfter_none (ended : List (Fin 32)) : staysAfter ended none = staysWith ended := by
  funext o
  simp [staysAfter]

theorem staysAfter_some (ended : List (Fin 32)) (f : Fence) (o : Owner) :
    staysAfter ended (some f) o = (!decide (o = .fence) && staysWith ended o) := by
  simp [staysAfter, Bool.and_comm]

theorem State.ClosesTo.told {ended : List (Fin 32)} {final : Fin 32 → Train → Completion} {r : State}
    (closes : s.ClosesTo ended final r) : s.EndsTo ended final (r.toldOf ended.length) := by
  have frame := closes.frame
  have fetch : r.fetch = s.fetch := (congrArg State.fetch frame :)
  have head : r.head = s.head := (congrArg State.head frame :)
  have now : r.deviceTime = s.deviceTime := (congrArg State.deviceTime frame :)
  have calm (m : Fin 4) : r.ring m = { s.ring m with
      staged := (s.ring m).staged ++ ended.filterMap (s.finalOf final m) ++ []
      owed := (s.ring m).owed - (ended.countP fun j => Train.owes m (s.train j)) - 0 } := by
    rw [List.append_nil, Nat.sub_zero]
    exact closes.ring m
  by_cases fenced : ∃ f, s.fetch = .fenced f
  · obtain ⟨f, waits⟩ := fenced
    have waits' : r.fetch = .fenced f := fetch.trans waits
    by_cases last : f.count ≤ ended.length
    · have ends : s.fenceOver ended.length = some f := by
        simp [State.fenceOver, waits, Fetch.waiting, last]
      have record : fenceEndOf r f.tag .ok f.acceptedAt 0 = fenceEndOf s f.tag .ok f.acceptedAt 0 := by
        simp only [fenceEndOf, head, now]
      rw [State.toldOf_of_last waits' last, record]
      refine ⟨closes.train, fun m => ?_, closes.line, ?_⟩
      · refine (State.ring_stageFinal (s := r.leave .fence) ..).trans ?_
        rw [ends]
        change (if f.ring = m then { r.ring f.ring with
          staged := (r.ring f.ring).staged ++ [fenceEndOf s f.tag .ok f.acceptedAt 0]
          owed := (r.ring f.ring).owed - 1 } else r.ring m) = _
        by_cases here : f.ring = m
        · subst here
          rw [if_pos rfl, closes.ring]
          simp
        · rw [if_neg here, closes.ring]
          simp [here]
      · have listed : (r.leave .fence).admission = s.admission.filter (staysAfter ended (some f)) := by
          refine (congrArg (List.filter _) closes.admission).trans ((List.filter_filter ..).trans ?_)
          exact List.filter_congr fun o _ => (staysAfter_some ended f o).symm
        have entries : (r.leave .fence).calendar = s.calendar.filter fun e => staysAfter ended (some f) e.owner := by
          refine (congrArg (List.filter _) closes.calendar).trans ((List.filter_filter ..).trans ?_)
          exact List.filter_congr fun e _ => (staysAfter_some ended f e.owner).symm
        rw [ends, ← listed, ← entries, ← closes.tagMap, waits, Fetch.after, if_pos last, frame]
        rfl
    · have ends : s.fenceOver ended.length = none := by
        simp [State.fenceOver, waits, Fetch.waiting, Nat.lt_of_not_le last]
      rw [State.toldOf_of_more waits' last]
      refine ⟨closes.train, fun m => ?_, closes.line, ?_⟩
      · rw [ends]
        exact calm m
      · rw [ends, staysAfter_none, waits, Fetch.after, if_neg last, ← closes.admission, ← closes.tagMap,
          ← closes.calendar, frame]
  · have free : s.fetch.waiting = none := by
      cases unit : s.fetch with
      | fenced f => exact absurd ⟨f, unit⟩ fenced
      | idle => rfl
      | reading r => rfl
      | stalled c t => rfl
    have ends : s.fenceOver ended.length = none := by rw [State.fenceOver, free]; rfl
    have same : s.fetch.after ended.length = s.fetch := by
      unfold Fetch.after
      split
      · rename_i f waits
        exact absurd ⟨f, waits⟩ fenced
      · rfl
    rw [State.toldOf_of_free (fetch ▸ free)]
    refine ⟨closes.train, fun m => ?_, closes.line, ?_⟩
    · rw [ends]
      exact calm m
    · rw [ends, staysAfter_none, same, ← closes.admission, ← closes.tagMap, ← closes.calendar]
      exact frame

end Sys2Proof.Machine
end

section
/-! PROOFS. CANCEL with cascade and the last BOUNDARY of a train STOPPING in cascade (R53, R65, R111). -/

namespace Sys2Proof.Machine

set_option Elab.async false

variable {s : State}

/-! The end in cascade as the claim states it -/

/-- The finals of an end in cascade: `record` for the train that ends it, CANCELLED with the flag for those below. -/
def State.cascadeFinal (s : State) (k : Fin 32) (record : Completion) (j : Fin 32) (u : Train) : Completion :=
  if j = k then record else trainEndOf s u .cancelled true u.repsDone

/-- The trains below one that is live, and it: each once, and all live. -/
theorem State.Ordered.cascade_once (o : s.Ordered) (chains : s.ChainsSound) {k : Fin 32} {t : Train}
    (live : s.train k = some t) : (s.cascadeOrder 32 t.tag ++ [k]).Nodup
      ∧ ∀ j ∈ s.cascadeOrder 32 t.tag ++ [k], s.train j ≠ none := by
  have apart := o.not_below_self chains live
  refine ⟨(o.nodup_cascadeOrder (o.rooted live apart) 32).append (List.nodup_singleton k)
    (List.disjoint_singleton.mpr fun mem => apart ((o.mem_cascadeOrder_iff_below chains).mp mem)), fun j mem => ?_⟩
  obtain below | self := List.mem_append.mp mem
  · exact (o.below_of_mem below).live
  · obtain rfl := List.mem_singleton.mp self
    rw [live]
    exact Option.some_ne_none t

theorem cascadeLeaves_of (o : s.Ordered) (chains : s.ChainsSound) {k : Fin 32} {t : Train} {record : Completion}
    {r : State} (live : s.train k = some t)
    (ends : s.EndsTo (s.cascadeOrder 32 t.tag ++ [k]) (s.cascadeFinal k record) r) :
    CascadeLeaves s r k t record fun _ => [] := by
  have once := (o.cascade_once chains live).1
  have other {j : Fin 32} (mem : j ∈ s.cascadeOrder 32 t.tag) : j ≠ k := by
    rintro rfl
    exact List.disjoint_of_nodup_append once mem (List.mem_singleton_self _)
  refine ⟨(List.nodup_append.mp once).1, fun j => o.mem_cascadeOrder_iff_below chains,
    o.depthFirst_cascadeOrder chains 32, ends.train, fun m => ?_, fun l => ?_, ?_⟩
  · have below : (s.cascadeOrder 32 t.tag).filterMap (s.finalOf (s.cascadeFinal k record) m)
        = (s.cascadeOrder 32 t.tag).filterMap fun j => (s.train j).bind fun u =>
          if u.ring = m then some (trainEndOf s u .cancelled true u.repsDone) else none := by
      refine List.filterMap_congr fun j mem => ?_
      simp only [State.finalOf, State.cascadeFinal, if_neg (other mem)]
    have last : [k].filterMap (s.finalOf (s.cascadeFinal k record) m) = if t.ring = m then [record] else [] := by
      by_cases here : t.ring = m <;> simp [State.finalOf, State.cascadeFinal, live, here]
    rw [ends.ring, List.filterMap_append, below, last, List.append_nil, ← List.append_assoc (s.ring m).staged]
    rfl
  · rw [ends.line]
    refine List.foldl_ext _ _ _ fun x j _ => ?_
    have status (u : Train) : (s.cascadeFinal k record j u).status = if j = k then record.status else .cancelled := by
      unfold State.cascadeFinal
      split <;> rfl
    cases there : s.train j with
    | none => simp only [State.lineAfter, there]
    | some u => simp only [State.lineAfter, there, status]
  · exact ends.frame

/-- A record staged after the ends stands behind theirs (R135). -/
theorem cascadeLeaves_stageFree {r : State} {k : Fin 32} {t : Train} {record : Completion}
    (leaves : CascadeLeaves s r k t record fun _ => []) (i : Fin 4) (c : Completion) :
    CascadeLeaves s (r.stageFree i c) k t record fun m => if i = m then [c] else [] := by
  obtain ⟨once, below, order, train, ring, line, frame⟩ := leaves
  refine ⟨once, below, order, train, fun m => ?_, line, ?_⟩
  · rw [State.ring_stageFree]
    by_cases here : i = m
    · subst here
      rw [if_pos rfl, ring]
      simp only [List.append_nil, if_true]
    · rw [if_neg here, ring]
      simp only [if_neg here]
  · rw [frame]
    rfl

/-- A waiting fence counts every train that the cascade ends (R137). -/
theorem Law.ended_le_count {m : Midway} (tags : Law.tags m s) {ended : List (Fin 32)} (once : ended.Nodup)
    (live : ∀ j ∈ ended, s.train j ≠ none) {f : Fence} (waits : f ∈ s.fetch.waiting) : ended.length ≤ f.count := by
  obtain ⟨-, named, -, fence⟩ := tags
  obtain ⟨count, -⟩ := fence f waits
  have inj : (ended.map Work.train).Nodup := once.map fun _ _ => Work.train.inj
  have sub : ended.map Work.train ⊆ s.tagMap.map (·.2) := by
    intro w mem
    obtain ⟨j, hj, rfl⟩ := List.mem_map.mp mem
    obtain ⟨u, there⟩ := Option.ne_none_iff_exists'.mp (live j hj)
    exact List.mem_map_of_mem (f := (·.2)) ((named u.tag (.train j)).mpr (by rw [State.tagOf, there]; rfl))
  have most := (inj.subperm sub).length_le
  rw [List.length_map, List.length_map] at most
  omega

/-- An end in cascade of a live train, in RUNNING (R111, R112, R138). -/
theorem State.endTrainCascade_leaves (o : s.Ordered) (chains : s.ChainsSound) {m : Midway} (tags : Law.tags m s)
    (running : s.device = .running) {k : Fin 32} {t : Train} (live : s.train k = some t) (st : Status) :
    ∃ r, s.endTrainCascade k st = (if s.fetch.waiting.isSome ∧ r.fetch = .idle then r.issueRead else r)
      ∧ s.EndsTo (s.cascadeOrder 32 t.tag ++ [k]) (s.cascadeFinal k (trainEndOf s t st false t.repsDone)) r := by
  obtain ⟨once, all⟩ := o.cascade_once chains live
  have out : k ∉ s.cascadeOrder 32 t.tag := fun mem =>
    List.disjoint_of_nodup_append once mem (List.mem_singleton_self k)
  exact ⟨_, State.endTrainCascade_eq live out running (fun f waits => Law.ended_le_count tags once all waits)
    fun _ _ => rfl, (State.closesTo_foldl _ _ once all).told⟩

/-! The train whose last repetition has just been counted -/

/-- The state with the BOUNDARY of train `k` taken from the calendar, and its last repetition counted. -/
def State.counted (s : State) (rest : List Entry) (k : Fin 32) (t : Train) (n : Nat) : State :=
  ({ s with calendar := rest } : State).setTrain k (some { t with repsDone := n })

/-- The works are accounted for in the counted state too (R52). -/
theorem State.counted_sound {rest : List Entry} {k : Fin 32} {t : Train} (works : s.WorksSound) (tags : s.TagsSound)
    (chains : s.ChainsSound) (due : DueNow s (.train k) .boundary rest) (live : s.train k = some t) (n : Nat) :
    (s.counted rest k t n).Ordered ∧ (s.counted rest k t n).ChainsSound
      ∧ Law.tags (.owing (.train k)) (s.counted rest k t n) := by
  have moves := (Moves.works.and (fun _ _ h => h) Moves.tags).and (fun _ _ h => h) (Moves.chains True)
  have outer := (OuterMoves.works.and (fun _ _ h => h) OuterMoves.tags).and (fun _ _ h => h) (OuterMoves.chains True)
  have entry : s.dueEntry = some { due := s.deviceTime, owner := .train k, action := .boundary } :=
    (s.dueEntry_eq_some _).mpr ⟨rest, due, rfl⟩
  have popped : s.popEntry = { s with calendar := rest } := by rw [State.popEntry, due]; rfl
  have start := (outer.pop entry).run ⟨⟨Law.works_rest.mpr works, Law.tags_rest.mpr tags⟩,
    Law.chains_rest.mpr fun _ => chains⟩
  rw [popped] at start
  have same : t.Same { t with repsDone := n } := ⟨rfl, rfl, rfl, rfl, rfl⟩
  obtain ⟨⟨works', tags'⟩, chains'⟩ :=
    (moves.retrain (s := { s with calendar := rest }) (i := k) live same (.inl Iff.rfl)).run start
  exact ⟨Law.ordered works' tags', Law.chains_rest.mp (fun h => chains' h) trivial, tags'⟩

section
variable {rest : List Entry} {k : Fin 32} {t : Train} {n : Nat}

/-- A train of the counted state is the one that it was, but for the count. -/
theorem State.counted_train (j : Fin 32) : (s.counted rest k t n).train j = s.train j
    ∨ j = k ∧ (s.counted rest k t n).train j = some { t with repsDone := n } := by
  unfold State.counted
  rw [State.train_setTrain]
  split
  · exact .inr ⟨Eq.symm ‹_›, rfl⟩
  · exact .inl rfl

variable (live : s.train k = some t)
include live

theorem State.counted_waiters (p : StartCondition → Bool) : (s.counted rest k t n).waiters p = s.waiters p := by
  rw [State.waiters_eq, State.waiters_eq, oldestWaiting_eq, oldestWaiting_eq]
  refine List.filterMap_congr fun o _ => ?_
  cases o with
  | train j =>
    obtain e | ⟨rfl, e⟩ := State.counted_train (s := s) (rest := rest) (k := k) (t := t) (n := n) j
    · simp only [State.waiterAt, e]
    · simp only [State.waiterAt, e, live, Option.any_some]
  | capture j => rfl
  | fence => rfl

theorem State.counted_cascadeOrder (d : Nat) (g : Tag) :
    (s.counted rest k t n).cascadeOrder d g = s.cascadeOrder d g := by
  induction d generalizing g with
  | zero => rfl
  | succ d ih =>
    rw [State.cascadeOrder_succ, State.cascadeOrder_succ, State.counted_waiters live]
    refine List.flatMap_congr fun j _ => ?_
    congr 1
    obtain e | ⟨rfl, e⟩ := State.counted_train (s := s) (rest := rest) (k := k) (t := t) (n := n) j
    · simp only [State.cascadeBelow, e, ih]
    · simp only [State.cascadeBelow, e, live, ih]

/-- The ends from the counted state are ends from the state before the BOUNDARY, where the counted train is among
them and its final is given. -/
theorem State.EndsTo.of_counted {ended : List (Fin 32)} {final : Fin 32 → Train → Completion} {r : State}
    (ends : (s.counted rest k t n).EndsTo ended final r) (due : DueNow s (.train k) .boundary rest) (mem : k ∈ ended)
    (given : ∀ u v, final k u = final k v) : s.EndsTo ended final r := by
  have train := State.counted_train (s := s) (rest := rest) (k := k) (t := t) (n := n)
  have owes (m : Fin 4) (j : Fin 32) : Train.owes m ((s.counted rest k t n).train j) = Train.owes m (s.train j) := by
    obtain e | ⟨rfl, e⟩ := train j
    · rw [e]
    · rw [e, live]
      rfl
  have finals (m : Fin 4) (j : Fin 32) : (s.counted rest k t n).finalOf final m j = s.finalOf final m j := by
    obtain e | ⟨rfl, e⟩ := train j
    · rw [State.finalOf, State.finalOf, e]
    · rw [State.finalOf, State.finalOf, e, live, Option.bind_some, Option.bind_some, given]
  have lines (l : Fin 16) : (s.counted rest k t n).lineAfter final l = s.lineAfter final l := by
    funext x j
    obtain e | ⟨rfl, e⟩ := train j
    · simp only [State.lineAfter, e]
    · simp only [State.lineAfter, e, live, given _ t]
  refine ⟨fun j => ?_, fun m => ?_, fun l => ?_, ?_⟩
  · rw [ends.train]
    split
    · rfl
    · obtain e | ⟨rfl, -⟩ := train j
      · exact e
      · exact absurd mem ‹_›
  · have ring := ends.ring m
    simp only [owes, funext (finals m)] at ring
    exact ring
  · rw [ends.line, lines]
    rfl
  · have frame := ends.frame
    have gone : staysAfter ended (s.fenceOver ended.length) (.train k) = false := by
      simp [staysAfter, staysWith, mem]
    have entries : (s.calendar.filter fun e => staysAfter ended (s.fenceOver ended.length) e.owner)
        = rest.filter fun e => staysAfter ended (s.fenceOver ended.length) e.owner := by
      rw [due, List.filter_cons_of_neg]
      simp [gone]
    rw [entries]
    exact frame

end

/-! The obligation -/

/-- A CANCEL that ends its train in cascade (R63 to R65). -/
theorem State.doCancel_in_cascade {h : Header} {k : Fin 32} {t : Train} (named : s.lookup h.tag = some (.train k))
    (live : s.train k = some t)
    (kind : h.flags = 0x02 ∨ h.flags = 0x06 ∧ (t.state = .waiting ∨ t.state = .armed)
      ∨ h.flags = 0x00 ∧ t.state = .stopping ∧ t.stopKind = .cascade) :
    s.doCancel h = s.endTrainCascade k .cancelled := by
  have now : h.cancelMode = 0 ∨ t.state = .waiting ∨ t.state = .armed := by
    obtain flags | ⟨-, before⟩ | ⟨flags, -⟩ := kind
    · exact .inl (Header.cancelMode_of_immediate (.inr flags))
    · exact .inr before
    · exact .inl (Header.cancelMode_of_immediate (.inl flags))
  rw [State.doCancel_of_ends named live now]
  simp only [State.cancelNow, live]
  refine if_pos ?_
  obtain flags | ⟨flags, -⟩ | ⟨-, stopping, cascade⟩ := kind
  · simp [Header.cascade, flags]
  · simp [Header.cascade, flags]
  · simp [stopping, cascade]

/-- Settles O23: the ends come depth first, each once, and are reported together with the last. -/
theorem cascadeEndsEveryWaiter : Obligations.CascadeEndsEveryWaiter := by
  intro s k t works tags chains live
  have o := Law.ordered (Law.works_rest.mpr works) (Law.tags_rest.mpr tags)
  have running : s.device = .running := by
    by_contra off
    obtain ⟨trains, -⟩ := State.noWork_iff.mpr ((Law.works_rest.mpr works).2.2.2 rfl off)
    rw [trains] at live
    cases live
  constructor
  · intro h i hf grants kind reserved tag named
    have flags : h.flags = 0 ∨ h.flags = 2 ∨ h.flags = 4 ∨ h.flags = 6 := by
      obtain flags | ⟨flags, -⟩ | ⟨flags, -⟩ := kind <;> simp [flags]
    have free : s.accepted.fetch.waiting = none := rfl
    have o' : s.accepted.Ordered := ⟨o.once, o.listed, o.unique⟩
    have tags' : Law.tags .rest s.accepted :=
      Law.tags_of_unfenced (Law.tags_rest.mpr tags) (fun w => by cases w <;> rfl) rfl free
    obtain ⟨r, e, ends⟩ := State.endTrainCascade_leaves o' chains tags' running (s := s.accepted) live .cancelled
    have plain : s.accepted.endTrainCascade k .cancelled = r := by
      rw [e, if_neg (by simp [free])]
    have spare := (spare_reserve s.accepted i).endTrainCascade free k .cancelled
    have from_accepted := endedFrom_endTrainCascade s.accepted k .cancelled free
    have does : (s.accepted.reserve i).doCancel h = (s.accepted.reserve i).endTrainCascade k .cancelled :=
      State.doCancel_in_cascade named live kind
    rw [plain] at spare from_accepted
    refine ⟨_, congrArg Host.Outcome.next (State.submit_cancel_ends hf grants flags reserved tag named
      (does ▸ spare) from_accepted), ?_⟩
    exact cascadeLeaves_stageFree (cascadeLeaves_of o' chains live ends) i _
  · intro rest due stopping cascade last
    obtain ⟨o', chains', tags'⟩ := State.counted_sound works tags chains due live t.repsAfter
    have live' : (s.counted rest k t t.repsAfter).train k = some { t with repsDone := t.repsAfter } :=
      State.train_setTrain_self ..
    obtain ⟨r, e, ends⟩ := State.endTrainCascade_leaves o' chains' tags' running live' .stopped
    rw [State.counted_cascadeOrder live] at ends
    refine ⟨r, ?_, cascadeLeaves_of o chains live (ends.of_counted live due ?_ ?_)⟩
    · rw [exec_boundaryDelivered_of_dueNow due,
        State.boundary_of_last (s := { s with calendar := rest }) live last]
      dsimp only
      rw [if_pos stopping, if_pos cascade]
      exact congrArg Host.Outcome.next e
    · simp
    · intro u v
      simp only [State.cascadeFinal, if_true]

end Sys2Proof.Machine
end
